-- ==== Sys2Proof/Word.lean ====
section
/-! DEFINITION. The word types: the bytes the ports and the bounce memory carry, and the 32-bit words of the command set (30_encoding.md R110). -/

namespace Sys2Proof

/-- One byte of stream data or of a port's transport (R111). -/
abbrev Byte := BitVec 8

/-- A command, length, response or value word (R110, R121). -/
abbrev Word := BitVec 32

end Sys2Proof
end

