-- ==== Sys2Proof/Syntax.lean ====
section
/-! DEFINITION. The command and event set of spec/opcode_table.json: one constructor per row, operands already assembled (30_encoding.md R114, R115). -/

namespace Sys2Proof

/-- The operating modes (00_scope.md R13): A is channel 0, B is channel 1. -/
inductive Mode where
  | idle
  | rx0
  | rx1
  | tx
  deriving DecidableEq, Repr, Inhabited

/-- The inputs a command or event word can arrive on (R115): the three host ports and the event input. -/
inductive Port where
  | ctl
  | rd
  | wr
  | evt
  deriving DecidableEq, Repr, Inhabited

/-- The commands and events, in the order of R115. -/
inductive Instr where
  /-- OPEN (R300). -/
  | openDev
  /-- CLOSE (R302). -/
  | closeDev
  /-- GET_MODE (R158). -/
  | getMode
  /-- SET_MODE with its MODE operand (R150). -/
  | setMode (m : Mode)
  /-- GET_UNIT (R291). -/
  | getUnit
  /-- GET_MULT (R292). -/
  | getMult
  /-- SET_MULT with VAL, an unsigned 8-bit field (R293). -/
  | setMult (v : BitVec 8)
  /-- GET_OFFS (R294). -/
  | getOffs
  /-- SET_OFFS with OFFA and OFFB, sign-extended 4-bit fields (R295, R114). -/
  | setOffs (a b : Int)
  /-- POLL (R289). -/
  | poll
  /-- GET_STAT with IDX, an unsigned 4-bit field (R298). -/
  | getStat (i : BitVec 4)
  /-- READ with NB and LEN (R280). -/
  | read (nb : Bool) (n : Word)
  /-- WRITE with its data bytes; LEN is their number (R284). -/
  | write (data : List Byte)
  /-- FLUSH, the W format with NUL = 1 (R288). -/
  | flush
  /-- SEG_DONE, handled by the dispatcher (R200). -/
  | segDone
  /-- REFRESH_TICK (R186). -/
  | refreshTick
  /-- CANCEL (R266). -/
  | cancel
  deriving DecidableEq, Repr, Inhabited

end Sys2Proof
end

