-- ==== Sys2Proof/WellFormed.lean ====
section
/-! DEFINITION. Which instructions a command word can stand for: the operand ranges of the fields of 30_encoding.md R113 and R114. -/

namespace Sys2Proof

/-- A value a 4-bit two's complement field can hold (R114). -/
abbrev fitsSigned4 (x : Int) : Prop := -8 ≤ x ∧ x ≤ 7

/-- The instruction has an encoding: its offsets fit their 4-bit fields and its data length fits the 32-bit length word. -/
def Instr.wellFormed : Instr → Bool
  | .openDev => true
  | .closeDev => true
  | .getMode => true
  | .setMode _ => true
  | .getUnit => true
  | .getMult => true
  | .setMult _ => true
  | .getOffs => true
  | .setOffs a b => decide (fitsSigned4 a) && decide (fitsSigned4 b)
  | .poll => true
  | .getStat _ => true
  | .read _ _ => true
  | .write data => decide (data.length < 2 ^ 32)
  | .flush => true
  | .segDone => true
  | .refreshTick => true
  | .cancel => true

end Sys2Proof
end

