-- ==== Sys2Proof/Decode.lean ====
section
/-! DEFINITION. The decoder of 30_encoding.md (R111 to R120), total on every byte stream, rejecting by name; then the encoder written from the same tables. -/

namespace Sys2Proof

/-! ## Fields -/

/-- The mode codes of R13: all four 2-bit codes are modes (R114). -/
def modeOfCode (c : BitVec 2) : Mode :=
  match c.toNat with
  | 0 => .idle
  | 1 => .rx0
  | 2 => .rx1
  | _ => .tx

/-- The code of a mode (R13). -/
def Mode.code : Mode → Nat
  | .idle => 0
  | .rx0 => 1
  | .rx1 => 2
  | .tx => 3

/-- OP = CW[31:24] (R112). -/
def opField (cw : Word) : BitVec 8 := cw.extractLsb' 24 8

/-- A 32-bit word of a port's stream, least significant byte first (R111), and the rest of the stream. -/
def takeWord : List Byte → Option (Word × List Byte)
  | b0 :: b1 :: b2 :: b3 :: rest => some ((b3 ++ b2 ++ b1 ++ b0 : BitVec 32), rest)
  | _ => none

/-- The four bytes of a word as the transport sends them (R111). -/
def wordBytes (w : Word) : List Byte :=
  [w.extractLsb' 0 8, w.extractLsb' 8 8, w.extractLsb' 16 8, w.extractLsb' 24 8]

/-! ## The opcode map -/

/-- The formats of R113. -/
inductive Format where
  | n
  | m
  | v
  | o
  | i
  | r
  | w
  | e
  deriving DecidableEq, Repr

/-- The assigned opcodes of R115; WRITE and FLUSH share 0x30. -/
inductive Opcode where
  | openDev
  | closeDev
  | getMode
  | setMode
  | getUnit
  | getMult
  | setMult
  | getOffs
  | setOffs
  | poll
  | getStat
  | read
  | write
  | segDone
  | refreshTick
  | cancel
  deriving DecidableEq, Repr

/-- The opcode number (R115). -/
def Opcode.number : Opcode → Nat
  | .openDev => 0x01
  | .closeDev => 0x02
  | .getMode => 0x10
  | .setMode => 0x11
  | .getUnit => 0x12
  | .getMult => 0x13
  | .setMult => 0x14
  | .getOffs => 0x15
  | .setOffs => 0x16
  | .poll => 0x17
  | .getStat => 0x18
  | .read => 0x20
  | .write => 0x30
  | .segDone => 0x40
  | .refreshTick => 0x41
  | .cancel => 0x42

/-- Every assigned opcode, in the order of R115. -/
def Opcode.all : List Opcode :=
  [.openDev, .closeDev, .getMode, .setMode, .getUnit, .getMult, .setMult, .getOffs, .setOffs, .poll, .getStat,
    .read, .write, .segDone, .refreshTick, .cancel]

/-- The opcode a number is assigned to, if any (R115, R118). -/
def opcodeOf (op : BitVec 8) : Option Opcode := Opcode.all.find? (fun o => o.number == op.toNat)

/-- The format column of R115. -/
def Opcode.format : Opcode → Format
  | .openDev => .n
  | .closeDev => .n
  | .getMode => .n
  | .setMode => .m
  | .getUnit => .n
  | .getMult => .n
  | .setMult => .v
  | .getOffs => .n
  | .setOffs => .o
  | .poll => .n
  | .getStat => .i
  | .read => .r
  | .write => .w
  | .segDone => .e
  | .refreshTick => .e
  | .cancel => .e

/-- The port column of R115. -/
def Opcode.port : Opcode → Port
  | .openDev => .ctl
  | .closeDev => .ctl
  | .getMode => .ctl
  | .setMode => .ctl
  | .getUnit => .ctl
  | .getMult => .ctl
  | .setMult => .ctl
  | .getOffs => .ctl
  | .setOffs => .ctl
  | .poll => .ctl
  | .getStat => .ctl
  | .read => .rd
  | .write => .wr
  | .segDone => .evt
  | .refreshTick => .evt
  | .cancel => .evt

/-- The bits of CW[23:0] that a format reserves (R113). -/
def Format.reserved : Format → Word
  | .n => 0x00FFFFFF
  | .m => 0x00FFFFFC
  | .v => 0x00FFFF00
  | .o => 0x00FFFF00
  | .i => 0x00FFFFF0
  | .r => 0x00FFFFFE
  | .w => 0x00FFFFFE
  | .e => 0x00FFFFFF

/-! ## Decoding one word -/

/-- Why a word is illegal (R117 to R119). -/
inductive Reject where
  /-- An opcode R118 reserves. -/
  | unassignedOpcode
  /-- An opcode of the custom space 0xF0 to 0xFF (R118). -/
  | customOpcode
  /-- An assigned opcode on a port where it is not legal (R115). -/
  | wrongPort
  /-- A reserved bit that is not zero (R119). -/
  | reservedBits
  deriving DecidableEq, Repr

/-- The instruction of an opcode, its operands assembled from the command word, the length word and the data bytes (R114). -/
def assemble (o : Opcode) (cw lw : Word) (data : List Byte) : Instr :=
  match o with
  | .openDev => .openDev
  | .closeDev => .closeDev
  | .getMode => .getMode
  | .setMode => .setMode (modeOfCode (cw.extractLsb' 0 2))
  | .getUnit => .getUnit
  | .getMult => .getMult
  | .setMult => .setMult (cw.extractLsb' 0 8)
  | .getOffs => .getOffs
  | .setOffs => .setOffs (cw.extractLsb' 0 4).toInt (cw.extractLsb' 4 4).toInt
  | .poll => .poll
  | .getStat => .getStat (cw.extractLsb' 0 4)
  | .read => .read (cw.getLsbD 0) lw
  | .write => if cw.getLsbD 0 then .flush else .write data
  | .segDone => .segDone
  | .refreshTick => .refreshTick
  | .cancel => .cancel

/-- The decoder of R117 for a command word on a port, with the words that follow it. -/
def decodeWord (p : Port) (cw lw : Word) (data : List Byte) : Except Reject Instr :=
  match opcodeOf (opField cw) with
  | none => .error (if 0xF0 ≤ (opField cw).toNat then .customOpcode else .unassignedOpcode)
  | some o =>
    if o.port ≠ p then .error .wrongPort
    else if cw &&& o.format.reserved ≠ 0 then .error .reservedBits
    else .ok (assemble o cw lw data)

/-! ## Taking one command from a stream -/

/-- What follows a command word (R116). -/
inductive Follow where
  | nothing
  | lengthWord
  | lengthAndData
  deriving DecidableEq, Repr

/-- What follows a command word, by OP and CW[0] alone (R116); an event word is followed by nothing (R110, log 11). -/
def follow (p : Port) (cw : Word) : Follow :=
  if p = .evt then .nothing
  else if opField cw = 0x20 then .lengthWord
  else if opField cw = 0x30 ∧ cw.getLsbD 0 = false then .lengthAndData
  else .nothing

/-- The head of a port's stream: not yet a whole command, an illegal command of known length, or an instruction. -/
inductive Fetched where
  | incomplete
  | illegal (why : Reject) (rest : List Byte)
  | instr (i : Instr) (rest : List Byte)
  deriving DecidableEq, Repr

/-- A decoded word with the rest of its stream. -/
def fetched (d : Except Reject Instr) (rest : List Byte) : Fetched :=
  match d with
  | .error why => .illegal why rest
  | .ok i => .instr i rest

/-- Decode the first command of a port's stream and find where the next one starts (R111, R116, R117). -/
def decodeBytes (p : Port) (bytes : List Byte) : Fetched :=
  match takeWord bytes with
  | none => .incomplete
  | some (cw, r1) =>
    match follow p cw with
    | .nothing => fetched (decodeWord p cw 0 []) r1
    | .lengthWord =>
      match takeWord r1 with
      | none => .incomplete
      | some (lw, r2) => fetched (decodeWord p cw lw []) r2
    | .lengthAndData =>
      match takeWord r1 with
      | none => .incomplete
      | some (lw, r2) =>
        if r2.length < lw.toNat then .incomplete
        else fetched (decodeWord p cw lw (r2.take lw.toNat)) (r2.drop lw.toNat)

/-! ## The opcode table's words -/

/-- The port on which a word's opcode is legal; CTL for an unassigned one (R115). -/
def homePort (op : BitVec 8) : Port :=
  match opcodeOf op with
  | none => .ctl
  | some o => o.port

/-- The bytes of the number `w`, least significant first. -/
def numberBytes : Nat → Nat → List Byte
  | 0, _ => []
  | k + 1, w => BitVec.ofNat 8 w :: numberBytes k (w / 256)

/-- The command word of a table row: bits 31..0 of the row's number. -/
def tableWord (w : Nat) : Word := BitVec.ofNat 32 w

/-- An instruction of the opcode table as the transport sends it: its `nbits` bits as bytes, then a zero length word where R116 has one. -/
def tableBytes (nbits w : Nat) : List Byte :=
  numberBytes ((nbits + 7) / 8) w
    ++ (if follow (homePort (opField (tableWord w))) (tableWord w) = .nothing then []
        else List.replicate (8 - (nbits + 7) / 8) 0)

/-- The instruction the decoder reads from an instruction whose bits are `w`, on the port its opcode belongs to. -/
def decodeTableWord (nbits w : Nat) : Option Instr :=
  match decodeBytes (homePort (opField (tableWord w))) (tableBytes nbits w) with
  | .instr i _ => some i
  | .incomplete => none
  | .illegal _ _ => none

/-! ## The encoder -/

/-- The port an instruction is sent on (R115). -/
def Instr.port : Instr → Port
  | .read _ _ => .rd
  | .write _ => .wr
  | .flush => .wr
  | .segDone => .evt
  | .refreshTick => .evt
  | .cancel => .evt
  | .openDev => .ctl
  | .closeDev => .ctl
  | .getMode => .ctl
  | .setMode _ => .ctl
  | .getUnit => .ctl
  | .getMult => .ctl
  | .setMult _ => .ctl
  | .getOffs => .ctl
  | .setOffs _ _ => .ctl
  | .poll => .ctl
  | .getStat _ => .ctl

/-- The 4-bit two's complement pattern of an offset (R114, R294). -/
def bits4 (x : Int) : BitVec 4 := BitVec.ofInt 4 x

/-- An opcode number over 24 argument bits (R112). -/
def commandWord (o : Opcode) (arg : Nat) : Word := BitVec.ofNat 32 (o.number * 2 ^ 24 + arg)

/-- The command or event word of an instruction (R113, R115). -/
def encodeWord : Instr → Word
  | .openDev => commandWord .openDev 0
  | .closeDev => commandWord .closeDev 0
  | .getMode => commandWord .getMode 0
  | .setMode m => commandWord .setMode m.code
  | .getUnit => commandWord .getUnit 0
  | .getMult => commandWord .getMult 0
  | .setMult v => commandWord .setMult v.toNat
  | .getOffs => commandWord .getOffs 0
  | .setOffs a b => commandWord .setOffs ((bits4 b).toNat * 16 + (bits4 a).toNat)
  | .poll => commandWord .poll 0
  | .getStat i => commandWord .getStat i.toNat
  | .read nb _ => commandWord .read nb.toNat
  | .write _ => commandWord .write 0
  | .flush => commandWord .write 1
  | .segDone => commandWord .segDone 0
  | .refreshTick => commandWord .refreshTick 0
  | .cancel => commandWord .cancel 0

/-- What follows the command word of an instruction: the length word of READ, the length word and the data of WRITE (R110, R111). -/
def encodeTail : Instr → List Byte
  | .read _ n => wordBytes n
  | .write data => wordBytes (BitVec.ofNat 32 data.length) ++ data
  | .openDev => []
  | .closeDev => []
  | .getMode => []
  | .setMode _ => []
  | .getUnit => []
  | .getMult => []
  | .setMult _ => []
  | .getOffs => []
  | .setOffs _ _ => []
  | .poll => []
  | .getStat _ => []
  | .flush => []
  | .segDone => []
  | .refreshTick => []
  | .cancel => []

/-- An instruction as the transport sends it (R111). -/
def encode (i : Instr) : List Byte := wordBytes (encodeWord i) ++ encodeTail i

end Sys2Proof
end

