-- ==== Sys2Proof/Config.lean ====
section
/-! DEFINITION. The parameters of the model (00_scope.md R8) as a record that a state carries unchanged, and the free values: what the environment chooses and no rule fixes. -/

namespace Sys2Proof

/-- A value of the address/direction selector (R52); no source gives it an encoding (R8, D33).
`wire v` is the value a deployment numbers `v`; `hiz` and `select m a b` are the symbolic HIZ and SEL(m, a, b) of 95_test_vectors.md section 1 (log 6). -/
inductive SelectorValue where
  | hiz
  | select (m : Mode) (offa offb : Int)
  | wire (v : Nat)
  deriving DecidableEq, Repr

/-- The parameter set of R8, a named argument of the model (log 1).
MULT_MIN, MULT_MAX, OFFS_MIN, OFFS_MAX and CNT_W have the one value the table gives each (log 7). -/
structure Params where
  /-- N_SEG, the number of bounce segments. -/
  nSeg : Nat
  /-- U, the native transfer unit in bytes. -/
  unit : Nat
  /-- MULT_RESET. -/
  multReset : BitVec 8
  /-- OFFA_RESET. -/
  offaReset : Int
  /-- OFFB_RESET. -/
  offbReset : Int
  /-- OFFS_LEGAL(a, b), as the list of the legal pairs. -/
  offsLegal : List (Int × Int)
  /-- SELECTOR, as the values it takes at (mode, a, b); where none is listed it keeps the symbolic value (log 6). -/
  selector : List ((Mode × Int × Int) × SelectorValue)
  /-- SEL_HIZ, distinct from every SELECTOR value. -/
  selHiz : SelectorValue
  /-- QUIESCE_BUDGET, polls of ACTIVE in a stop. -/
  quiesceBudget : Nat
  /-- START_BUDGET, polls of ACTIVE in a start. -/
  startBudget : Nat
  /-- XFER_LEN_INIT (L), in segments. -/
  xferLen : Nat
  /-- REFRESH_THRESHOLD (T). -/
  refreshThreshold : Nat
  /-- REFRESH_RETRIES. -/
  refreshRetries : Nat
  /-- TX_FILL_OFFSET. -/
  txFillOffset : Nat
  /-- CONTENTION_DROP. -/
  contentionDrop : Bool
  /-- BOUNCE_BASE, the physical address of bounce segment 0. -/
  bounceBase : Nat
  /-- ADDR_W, the width of a physical address. -/
  addrW : Nat
  deriving DecidableEq, Repr

/-- The range [OFFS_MIN, OFFS_MAX] of one offset (R8). -/
def offsRange : List Int := [-1, 0, 1, 2, 3, 4]

/-- The default OFFS_LEGAL: every pair in range with a ≠ b (R8, D28). -/
def distinctOffsets : List (Int × Int) :=
  offsRange.flatMap (fun a => (offsRange.filter (fun b => decide (a ≠ b))).map (fun b => (a, b)))

/-- The arguments of SELECTOR: a non-idle mode and two offsets in range (R8). -/
def selectorArgs : List (Mode × Int × Int) :=
  [Mode.rx0, .rx1, .tx].flatMap (fun m => offsRange.flatMap (fun a => offsRange.map (fun b => (m, a, b))))

/-- A function as the parameter SELECTOR: its value at every argument. -/
def selectorTable (f : Mode → Int → Int → SelectorValue) : List ((Mode × Int × Int) × SelectorValue) :=
  selectorArgs.map (fun x => (x, f x.1 x.2.1 x.2.2))

/-- The parameter set P0 of 95_test_vectors.md section 1, held at reset (DESIGN CHOICE, log 1). -/
def Params.p0 : Params where
  nSeg := 4
  unit := 4
  multReset := 4
  offaReset := 0
  offbReset := 1
  offsLegal := distinctOffsets
  selector := []
  selHiz := .hiz
  quiesceBudget := 3
  startBudget := 3
  xferLen := 8
  refreshThreshold := 2
  refreshRetries := 2
  txFillOffset := 0
  contentionDrop := false
  bounceBase := 0x1000
  addrW := 32

/-- The agents of R11, one step each; `eventInput` is the EVT input taking a raw event word (R110, R120). -/
inductive Agent where
  | hostCtl
  | hostRd
  | hostWr
  | hostSig
  | dma
  | dispatch
  | tick
  | eventInput
  deriving DecidableEq, Repr, Inhabited

/-- A one-bit draw (R12, R51) the environment has not settled beforehand, by its number (log 2). -/
opaque Config.freeBit : Nat → Bool

/-- A drawn byte the environment has not settled beforehand, by its number (log 2). -/
opaque Config.freeByte : Nat → Byte

/-- The agent that steps next where nothing settles it, by the draw's number (R345, log 3). -/
opaque Config.freeAgent : Nat → Agent

/-- A queue store byte that no push has written, by its index (R240, U4, log 9). -/
opaque Config.storeByte : Nat → Byte

end Sys2Proof
end

