-- ==== Sys2Proof/Machine/State.lean ====
section
/-! DEFINITION. The block state S of 10_state.md R32 to R53, the ports, the environment's settled choices, and the state after power-on reset (R65, R380). -/

namespace Sys2Proof.Machine

/-- A transfer direction (00_scope.md R13). -/
inductive Dir where
  | none
  | devToMem
  | memToDev
  deriving DecidableEq, Repr

/-- The status codes of 60_exceptions.md R340. -/
inductive Status where
  | ok
  | deviceBusy
  | transferSetupFailed
  | interrupted
  | invalidParameter
  | resourceExhausted
  | illegalCommand
  | notOpen
  deriving DecidableEq, Repr

/-- One response of a host port: response word, value word, data (R121). -/
structure Response where
  status : Status
  value : Word
  data : List Byte
  deriving DecidableEq, Repr

/-- A stream queue (R38, R230): a circular store of `cap` bytes, two cursors and a count. -/
@[ext]
structure Queue where
  store : List Byte
  rd : Nat
  wr : Nat
  count : Nat
  deriving DecidableEq, Repr

/-- The queue of a closed device (R65, R302). -/
def Queue.closed : Queue := { store := [], rd := 0, wr := 0, count := 0 }

/-- Bounce memory: the cells that exist, at physical addresses, strictly rising (R81). -/
abbrev Memory := List Host.Cell

/-- What an address with no cell reads as: no value, because no byte exists there (R82, R90, log 8). -/
def Memory.unlisted : Option Byte := none

/-- The canonical form: addresses strictly rising; an unlisted address reads as no value, so no entry can repeat it. -/
abbrev Memory.wf (m : Memory) : Prop := (m.map Prod.fst).Pairwise (· < ·)

/-- The port state (R50, R111): the bytes sent to each input that the block has not taken yet, and the responses each host port has sent since reset (log 4, log 5). -/
@[ext]
structure Ports where
  ctlIn : List Byte
  rdIn : List Byte
  wrIn : List Byte
  evtIn : List Byte
  ctlOut : List Response
  rdOut : List Response
  wrOut : List Response
  deriving DecidableEq, Repr

/-- The environment's choices, as far as they are settled beforehand; what is not settled is a free value (log 2, log 3). -/
@[ext]
structure Env where
  /-- The agents whose steps come next. -/
  turns : List Agent
  /-- One-bit draws, oldest first: ACTIVE samples, arm and alloc (true for ok), fb (true for Keep), refresh attempts, contention. -/
  bits : List Bool
  /-- Drawn bytes, oldest first: RX data, bounce contents at OPEN. -/
  bytes : List Byte
  /-- How many draws have been taken: the number of the next free value. -/
  drawn : Nat
  deriving DecidableEq, Repr

/-- The block state (R32), with the parameter set it runs under. -/
@[ext]
structure State where
  /-- The parameter set (R8), which no step changes (R386). -/
  par : Params
  /-- The environment's settled choices (R12, R51). -/
  env : Env
  /-- The port state (R50). -/
  ports : Ports
  /-- S.open (R33). -/
  isOpen : Bool
  /-- S.mode (R34). -/
  mode : Mode
  /-- S.cfg_mult (R35). -/
  cfgMult : BitVec 8
  /-- S.cfg_offa (R36). -/
  cfgOffa : Int
  /-- S.cfg_offb (R36). -/
  cfgOffb : Int
  /-- S.cap (R37). -/
  cap : Nat
  /-- S.rx (R38). -/
  rx : Queue
  /-- S.tx (R38). -/
  tx : Queue
  /-- S.completed (R39), CNT_W = 32. -/
  completed : Word
  /-- S.dropped (R39), CNT_W = 32. -/
  dropped : Word
  /-- S.readable (R40). -/
  readable : Bool
  /-- S.writeable (R41). -/
  writeable : Bool
  /-- S.deadline_miss (R42). -/
  deadlineMiss : Bool
  /-- S.xfer_dir (R43). -/
  xferDir : Dir
  /-- S.hw_idx (R44). -/
  hwIdx : Nat
  /-- S.pending (R45). -/
  pending : Nat
  /-- S.bounce (R46). -/
  bounce : Memory
  /-- S.rd_blocked (R47). -/
  rdBlocked : Option Word
  /-- S.notify_count (R48). -/
  notifyCount : Nat
  /-- S.tx_wire (R49). -/
  txWire : List Byte
  /-- S.periph_en (R52). -/
  periphEn : Bool
  /-- S.periph_dir (R52). -/
  periphDir : Dir
  /-- S.xfer_remaining (R52). -/
  xferRemaining : Nat
  /-- S.sel (R52), the value driven on the address/direction selector. -/
  sel : SelectorValue
  deriving DecidableEq, Repr

/-- Why the machine stops. The block itself never faults (60_exceptions.md R357). -/
inductive Fault where
  /-- A bounce access that R82 rules out (outside the region, or the region not allocated): raised by SEG_DONE's dispatch and by the DMA segment step, in states no run reaches. Safe: the machine stops (log 14). -/
  | bounceAccess
  deriving DecidableEq, Repr

/-- Why an instruction or a step has no meaning. -/
inductive Refusal where
  /-- Raised by `exec` for an instruction that has no meaning yet; no arm uses it. Safe: the machine stops. -/
  | notModelled (mnemonic : String)
  /-- Raised by `step` when the parameter set fails R10: "A parameter set that fails a constraint is refused". Safe: the machine stops (log 13). -/
  | parameterSet
  deriving DecidableEq, Repr

/-- Power-on reset under a parameter set: the table of R65. -/
def State.resetWith (p : Params) : State where
  par := p
  env := { turns := [], bits := [], bytes := [], drawn := 0 }
  ports := { ctlIn := [], rdIn := [], wrIn := [], evtIn := [], ctlOut := [], rdOut := [], wrOut := [] }
  isOpen := false
  mode := .idle
  cfgMult := p.multReset
  cfgOffa := p.offaReset
  cfgOffb := p.offbReset
  cap := 0
  rx := Queue.closed
  tx := Queue.closed
  completed := 0
  dropped := 0
  readable := false
  writeable := false
  deadlineMiss := false
  xferDir := .none
  hwIdx := 0
  pending := 0
  bounce := []
  rdBlocked := none
  notifyCount := 0
  txWire := []
  periphEn := false
  periphDir := .none
  xferRemaining := 0
  sel := p.selHiz

/-- The machine right after power-on reset, under the parameter set P0 (R65, R380, log 1). -/
def State.reset : State := State.resetWith Params.p0

end Sys2Proof.Machine
end

