-- ==== Sys2Proof/Machine/Ops.lean ====
section
/-! DEFINITION. The named operations over the state: draws, responses, NOTIFY, bounce memory, stream queues (43_stream_queues.md). The block has no trap entry (60_exceptions.md R348): its one shared error operation is `raise`. -/

namespace Sys2Proof.Machine

/-! ## Draws (R12, R51) -/

/-- The next one-bit draw: settled beforehand, or else free (log 2). -/
def nextBit (e : Env) : Bool :=
  match e.bits with
  | b :: _ => b
  | [] => Config.freeBit e.drawn

/-- Use up one one-bit draw. -/
def dropBit (e : Env) : Env := { e with bits := e.bits.tail, drawn := e.drawn + 1 }

/-- The next `n` drawn bytes: settled beforehand, or else free (log 2). -/
def nextBytes (n : Nat) (e : Env) : List Byte :=
  (List.range n).map (fun i => e.bytes.getD i (Config.freeByte (e.drawn + i)))

/-- Use up `n` drawn bytes. -/
def dropBytes (n : Nat) (e : Env) : Env := { e with bytes := e.bytes.drop n, drawn := e.drawn + n }

/-- Draw up to `budget` bits until one reads `v` (R172): whether one did, and the draws left. -/
def pollFor (v : Bool) : Nat → Env → Bool × Env
  | 0, e => (false, e)
  | budget + 1, e => if nextBit e = v then (true, dropBit e) else pollFor v budget (dropBit e)

/-! ## Responses and NOTIFY -/

/-- The numbers of the status codes (R340). -/
def Status.code : Status → Nat
  | .ok => 0
  | .deviceBusy => 1
  | .transferSetupFailed => 2
  | .interrupted => 3
  | .invalidParameter => 4
  | .resourceExhausted => 5
  | .illegalCommand => 6
  | .notOpen => 7

/-- A response as the port sends it: RW, VW and the data (R121, R111). -/
def Response.bytes (r : Response) : List Byte :=
  wordBytes (BitVec.ofNat 32 (Status.code r.status)) ++ wordBytes r.value ++ r.data

/-- The response list of a port with one more response; events have none (R121). -/
def Ports.answer (q : Ports) (p : Port) (r : Response) : Ports :=
  match p with
  | .ctl => { q with ctlOut := q.ctlOut ++ [r] }
  | .rd => { q with rdOut := q.rdOut ++ [r] }
  | .wr => { q with wrOut := q.wrOut ++ [r] }
  | .evt => q

/-- `respond(status, value, data)` on a port (R12, R121). -/
def respond (p : Port) (st : Status) (value : Word) (data : List Byte) (s : State) : State :=
  { s with ports := s.ports.answer p { status := st, value := value, data := data } }

/-- `raise status`: the status with value 0, and no further state change (R12). -/
def raise (p : Port) (st : Status) (s : State) : State := respond p st 0 [] s

/-- `respond(OK, value, empty)`. -/
def done (p : Port) (value : Word) (s : State) : State := respond p .ok value [] s

/-- `notify()`: one NOTIFY pulse (R260). -/
def notify (s : State) : State := { s with notifyCount := s.notifyCount + 1 }

/-- The bytes waiting on an input. -/
def Ports.input (q : Ports) (p : Port) : List Byte :=
  match p with
  | .ctl => q.ctlIn
  | .rd => q.rdIn
  | .wr => q.wrIn
  | .evt => q.evtIn

/-- The ports with other bytes waiting on an input. -/
def Ports.setInput (q : Ports) (p : Port) (bytes : List Byte) : Ports :=
  match p with
  | .ctl => { q with ctlIn := bytes }
  | .rd => { q with rdIn := bytes }
  | .wr => { q with wrIn := bytes }
  | .evt => { q with evtIn := bytes }

/-- The state with other bytes waiting on an input. -/
def setInput (p : Port) (bytes : List Byte) (s : State) : State := { s with ports := s.ports.setInput p bytes }

/-! ## Bounce memory (R81, R82) -/

/-- The byte at a physical address, if one exists there. -/
def Memory.read : Memory → Nat → Option Byte
  | [], _ => Memory.unlisted
  | (k, b) :: m, a => if k = a then some b else Memory.read m a

/-- The memory with another byte at an address that exists; no memory if none exists there. -/
def Memory.write : Memory → Nat → Byte → Option Memory
  | [], _, _ => none
  | (k, b) :: m, a, x => if k = a then some ((k, x) :: m) else (Memory.write m a x).map (fun m' => (k, b) :: m')

/-- `n` bytes from an address upward. -/
def Memory.readBytes (m : Memory) (a : Nat) : Nat → Option (List Byte)
  | 0 => some []
  | n + 1 =>
    match Memory.read m a with
    | none => none
    | some b => (Memory.readBytes m (a + 1) n).map (fun bs => b :: bs)

/-- The memory with bytes stored from an address upward. -/
def Memory.writeBytes (m : Memory) (a : Nat) : List Byte → Option Memory
  | [] => some m
  | b :: bs =>
    match Memory.write m a b with
    | none => none
    | some m' => Memory.writeBytes m' (a + 1) bs

/-- Cells for a run of bytes from an address upward. -/
def Memory.cells (a : Nat) : List Byte → Memory
  | [] => []
  | b :: bs => (a, b) :: Memory.cells (a + 1) bs

/-- The size of the bounce region, N_SEG x U (R80). -/
def bounceSize (p : Params) : Nat := p.nSeg * p.unit

/-- `seg_addr(k)` (R81). -/
def segAddr (p : Params) (k : Nat) : Nat := p.bounceBase + k * p.unit

/-- The access requirement of R82. -/
def inBounce (p : Params) (a n : Nat) : Bool := decide (p.bounceBase ≤ a) && decide (a + n ≤ p.bounceBase + bounceSize p)

/-- `MemRead(a, n)` (R82). -/
def memRead (s : State) (a n : Nat) : Option (List Byte) :=
  if inBounce s.par a n then Memory.readBytes s.bounce a n else none

/-- `MemWrite(a, n, v)` with `n = len(v)` (R82). -/
def memWrite (s : State) (a : Nat) (v : List Byte) : Option State :=
  if inBounce s.par a v.length then (Memory.writeBytes s.bounce a v).map (fun m => { s with bounce := m }) else none

/-! ## Stream queues -/

/-- Store bytes from a cursor on, round the end of the store. -/
def ringWrite (cap : Nat) (store : List Byte) (pos : Nat) : List Byte → List Byte
  | [] => store
  | b :: bs => ringWrite cap (store.set (pos % cap) b) (pos + 1) bs

/-- `k` store bytes from a cursor on, round the end of the store. -/
def ringRead (cap : Nat) (store : List Byte) (pos k : Nat) : List Byte :=
  (List.range k).map (fun i => store.getD ((pos + i) % cap) (Config.storeByte ((pos + i) % cap)))

/-- `contents(q)` (R232). -/
def contents (cap : Nat) (q : Queue) : List Byte := ringRead cap q.store q.rd q.count

/-- How many of `n` bytes QueuePush accepts (R233). -/
def pushCount (cap : Nat) (q : Queue) (n : Nat) : Nat := min n (cap - q.count)

/-- QueuePush (R233): the queue after it; it accepts `pushCount cap q b.length` bytes. -/
def queuePush (cap : Nat) (q : Queue) (b : List Byte) : Queue :=
  let k := pushCount cap q b.length
  { q with store := ringWrite cap q.store q.wr (b.take k), wr := (q.wr + k) % cap, count := q.count + k }

/-- The bytes QueuePop returns (R234). -/
def popBytes (cap : Nat) (q : Queue) (m : Nat) : List Byte := ringRead cap q.store q.rd (min m q.count)

/-- QueuePop (R234): the queue after it; it returns `popBytes cap q m`. -/
def queuePop (cap : Nat) (q : Queue) (m : Nat) : Queue :=
  { q with rd := (q.rd + min m q.count) % cap, count := q.count - min m q.count }

/-- QueueReset (R235). -/
def queueReset (q : Queue) : Queue := { q with rd := 0, wr := 0, count := 0 }

/-- QueueDropAll (R236). -/
def queueDropAll (q : Queue) : Queue := { q with rd := q.wr, count := 0 }

/-- The queue OPEN creates: `cap` store bytes of any value, empty (R300, R240, log 9). -/
def queueNew (cap : Nat) : Queue := { store := (List.range cap).map Config.storeByte, rd := 0, wr := 0, count := 0 }

end Sys2Proof.Machine
end

