-- ==== Sys2Proof/Machine/Operands.lean ====
section
/-! DEFINITION. The legal sets of operands (45_host_interface.md R293, R295; 00_scope.md R8, R10) and the derived values of parameters and modes. -/

namespace Sys2Proof.Machine

/-- MULT_MIN and MULT_MAX: the legal queue-depth multipliers (R8, R293). -/
def multLegal (v : BitVec 8) : Bool := decide (2 ≤ v.toNat) && decide (v.toNat ≤ 32)

/-- OFFS_MIN and OFFS_MAX: the legal range of one offset (R8, R295). -/
def offsInRange (x : Int) : Bool := decide (-1 ≤ x) && decide (x ≤ 4)

/-- OFFS_LEGAL (R8). -/
def offsLegal (p : Params) (a b : Int) : Bool := decide ((a, b) ∈ p.offsLegal)

/-- The pair passes SET_OFFS: the range check, then OFFS_LEGAL (R295, R344). -/
def offsetsAccepted (p : Params) (a b : Int) : Bool := offsInRange a && offsInRange b && offsLegal p a b

/-- SELECTOR(m, a, b) (R8, R52, log 6). -/
def selectorValue (p : Params) (m : Mode) (a b : Int) : SelectorValue :=
  (p.selector.lookup (m, a, b)).getD (.select m a b)

/-- SEL_HIZ is distinct from every SELECTOR value (R8). -/
def hizDistinct (p : Params) : Bool :=
  selectorArgs.all (fun x => decide (selectorValue p x.1 x.2.1 x.2.2 ≠ p.selHiz))

/-- The constraints a parameter set must meet (R10; `1 ≤ ADDR_W` and the distinct SEL_HIZ are R8's, log 13). -/
def paramsLegal (p : Params) : Bool :=
  decide (2 ≤ p.nSeg ∧ 1 ≤ p.unit ∧ multLegal p.multReset = true
    ∧ offsetsAccepted p p.offaReset p.offbReset = true
    ∧ 1 ≤ p.quiesceBudget ∧ 1 ≤ p.startBudget ∧ 1 ≤ p.xferLen
    ∧ p.refreshThreshold < p.xferLen ∧ 1 ≤ p.refreshRetries ∧ p.txFillOffset < p.nSeg
    ∧ 2 ^ 32 % p.nSeg = 0 ∧ 32 * p.unit < 2 ^ 32 ∧ 1 ≤ p.addrW
    ∧ p.bounceBase + bounceSize p ≤ 2 ^ p.addrW ∧ hizDistinct p = true)

/-- The direction derived from a mode (R13). -/
def modeDir : Mode → Dir
  | .idle => .none
  | .rx0 => .devToMem
  | .rx1 => .devToMem
  | .tx => .memToDev

/-- The value OFFSETS and GET_OFFS show: `bits4(offb) * 16 + bits4(offa)` (R59, R294). -/
def offsetsWord (a b : Int) : Word := BitVec.ofNat 32 ((bits4 b).toNat * 16 + (bits4 a).toNat)

end Sys2Proof.Machine
end

