-- ==== Sys2Proof/Machine/Flags.lean ====
section
/-! DEFINITION. The flag computations: the STATUS register (10_state.md R56), the readiness flags (R40, R41, D22), POLL's mask (45_host_interface.md R289), and the register map of GET_STAT (R54 to R62). -/

namespace Sys2Proof.Machine

/-- A flag at a bit position of a 32-bit register. -/
def flagBit (pos : Nat) (b : Bool) : Word := BitVec.ofNat 32 (b.toNat * 2 ^ pos)

/-- STATUS: bits [6:0] as R56 lists them, bits [31:7] zero. -/
def statusWord (s : State) : Word :=
  flagBit 0 s.isOpen ||| flagBit 1 s.readable ||| flagBit 2 s.writeable ||| flagBit 3 (s.xferDir == .devToMem)
    ||| flagBit 4 (s.xferDir == .memToDev) ||| flagBit 5 s.deadlineMiss ||| flagBit 6 s.rdBlocked.isSome

/-- `readable` after a READ, READ_WAKE or FLUSH: cleared when RX is empty, else kept (R281). -/
def readableAfterPop (s : State) : Bool := if s.rx.count = 0 then false else s.readable

/-- `writeable` after a WRITE: cleared when TX is full, else kept (R285). -/
def writeableAfterPush (s : State) : Bool := if s.tx.count = s.cap then false else s.writeable

/-- POLL's mask, both bits from the RX queue (R289, R290). -/
def pollMask (s : State) : Word := flagBit 0 (decide (0 < s.rx.count)) ||| flagBit 1 (decide (s.rx.count < s.cap))

/-- The register at a GET_STAT index; none for the reserved indices 0xA to 0xF (R54, R62). -/
def csr (s : State) (i : BitVec 4) : Option Word :=
  match i.toNat with
  | 0x0 => some (BitVec.ofNat 32 s.mode.code)
  | 0x1 => some (statusWord s)
  | 0x2 => some (BitVec.ofNat 32 s.par.unit)
  | 0x3 => some (BitVec.ofNat 32 s.cfgMult.toNat)
  | 0x4 => some (offsetsWord s.cfgOffa s.cfgOffb)
  | 0x5 => some s.completed
  | 0x6 => some s.dropped
  | 0x7 => some (BitVec.ofNat 32 s.rx.count)
  | 0x8 => some (BitVec.ofNat 32 s.tx.count)
  | 0x9 => some (BitVec.ofNat 32 s.cap)
  | _ => none

end Sys2Proof.Machine
end

