-- ==== Sys2Proof/Machine/Segments.lean ====
section
/-! DEFINITION. The cyclic DMA segment manager (41_dma_segment_manager.md): StartTransfer, StopTransfer, ReArm, TxRestartCheck, the DMA agent's segment step. -/

namespace Sys2Proof.Machine

/-- PeriphDefaults (R170). -/
def periphDefaults (s : State) : State := { s with periphEn := false, periphDir := .none, xferRemaining := 0 }

/-- ReArm (R185). -/
def reArm (s : State) : State := { s with xferRemaining := s.par.xferLen }

/-- StartTransfer up to its wait: counters and indices zeroed, the peripheral re-enabled with the direction (R170). -/
def startPrepare (d : Dir) (s : State) : State :=
  { s with completed := 0, dropped := 0, deadlineMiss := false, hwIdx := 0, pending := 0, xferRemaining := s.par.xferLen,
           periphEn := true, periphDir := d }

/-- The wait of StartTransfer for ACTIVE = 1 (R170, R172). -/
def startPoll (s : State) : Bool × Env := pollFor true s.par.startBudget s.env

/-- StartTransfer (R170): its result (`ok`, `deviceBusy` or `transferSetupFailed`). -/
def startResult (s : State) : Status :=
  if (startPoll s).1 then (if nextBit (startPoll s).2 then .ok else .transferSetupFailed) else .deviceBusy

/-- StartTransfer (R170, R171): the state after it. -/
def startTransfer (d : Dir) (s : State) : State :=
  if (startPoll s).1 then
    if nextBit (startPoll s).2 then { startPrepare d s with xferDir := d, env := dropBit (startPoll s).2 }
    else periphDefaults { startPrepare d s with env := dropBit (startPoll s).2 }
  else periphDefaults { startPrepare d s with env := (startPoll s).2 }

/-- The wait of StopTransfer for ACTIVE = 0 (R173, R172). -/
def stopPoll (s : State) : Bool × Env := pollFor false s.par.quiesceBudget s.env

/-- StopTransfer (R173): whether the peripheral quiesced within the budget. -/
def stopQuiesced (s : State) : Bool := (stopPoll s).1

/-- StopTransfer (R173): the state after it. -/
def stopTransfer (s : State) : State :=
  periphDefaults { s with xferDir := .none, pending := 0, env := (stopPoll s).2 }

/-- TxRestartCheck (R188): one ACTIVE sample; if it reads 0 the peripheral is restarted. -/
def txRestartCheck (s : State) : State :=
  if nextBit s.env then { s with env := dropBit s.env }
  else reArm { s with env := dropBit s.env, periphEn := true, periphDir := .memToDev }

/-- The DMA agent's step is enabled (R180). -/
def dmaEnabled (s : State) : Bool := decide (s.xferDir ≠ .none) && s.periphEn && decide (0 < s.xferRemaining)

/-- The bookkeeping of a segment step after its data moved: index, remaining count, deadline bit, pending (R180). -/
def segmentPosted (s : State) : State :=
  { s with hwIdx := (s.hwIdx + 1) % s.par.nSeg, xferRemaining := s.xferRemaining - 1,
           deadlineMiss := s.deadlineMiss || decide (0 < s.pending), pending := s.pending + 1 }

/-- A DevToMem segment: the drawn bytes go to the segment (R180). -/
def dmaReceive (s : State) : Host.Outcome State Fault Refusal :=
  match memWrite s (segAddr s.par s.hwIdx) (nextBytes s.par.unit s.env) with
  | none => .fault .bounceAccess
  | some s' => .next (segmentPosted { s' with env := dropBytes s.par.unit s.env })

/-- A MemToDev segment: the segment's bytes go to the wire (R180, R181). -/
def dmaTransmit (s : State) : Host.Outcome State Fault Refusal :=
  match memRead s (segAddr s.par s.hwIdx) s.par.unit with
  | none => .fault .bounceAccess
  | some bs => .next (segmentPosted { s with txWire := s.txWire ++ bs })

/-- The DMA agent's segment step (R180); no step while it is not enabled (R182, R183). -/
def dmaSegment (s : State) : Host.Outcome State Fault Refusal :=
  if dmaEnabled s then (if s.xferDir = .devToMem then dmaReceive s else dmaTransmit s) else .next s

end Sys2Proof.Machine
end

