-- ==== Sys2Proof/Machine/Mode.lean ====
section
/-! DEFINITION. The mode-transition state machine (40_mode_state_machine.md): SET_MODE and GET_MODE. -/

namespace Sys2Proof.Machine

/-- Idle: the mode and its selector value (R150, R155). -/
def enterIdle (s : State) : State := { s with mode := .idle, sel := s.par.selHiz }

/-- ConfigureSelector (R151). -/
def configureSelector (m : Mode) (s : State) : State := { s with sel := selectorValue s.par m s.cfgOffa s.cfgOffb }

/-- EnterTransmit (R152). -/
def enterTransmit (s : State) : State := notify { s with tx := queueReset s.tx, writeable := true, mode := .tx }

/-- DeviceBusyOutcome (R154): the draw fb, true for Keep. -/
def deviceBusyOutcome (s : State) : State :=
  if nextBit s.env then { s with env := dropBit s.env } else enterIdle { s with env := dropBit s.env }

/-- The receive branch of SET_MODE, the selector being configured (R153, R155). -/
def enterReceive (m : Mode) (s : State) : State :=
  if startResult s = .ok then done .ctl 0 { startTransfer .devToMem s with mode := m }
  else raise .ctl (startResult s) (enterIdle (startTransfer .devToMem s))

/-- SET_MODE after a stop that quiesced: through Idle, then into the requested mode (R150, R156). -/
def modeAfterStop (m : Mode) (s : State) : State :=
  match m with
  | .idle => done .ctl 0 (enterIdle s)
  | .tx => done .ctl 0 (enterTransmit (configureSelector .tx (enterIdle s)))
  | .rx0 => enterReceive .rx0 (configureSelector .rx0 (enterIdle s))
  | .rx1 => enterReceive .rx1 (configureSelector .rx1 (enterIdle s))

/-- SET_MODE (R150, R157). -/
def setMode (m : Mode) (s : State) : State :=
  if s.isOpen = false then raise .ctl .notOpen s
  else if m = s.mode then done .ctl 0 s
  else if stopQuiesced s then modeAfterStop m (stopTransfer s)
  else raise .ctl .deviceBusy (deviceBusyOutcome (stopTransfer s))

/-- SET_MODE (R150). -/
def execSetMode (m : Mode) (s : State) : Host.Outcome State Fault Refusal := .next (setMode m s)

/-- GET_MODE (R158). -/
def execGetMode (s : State) : Host.Outcome State Fault Refusal := .next (done .ctl (BitVec.ofNat 32 s.mode.code) s)

end Sys2Proof.Machine
end

