-- ==== Sys2Proof/Machine/Device.lean ====
section
/-! DEFINITION. OPEN and CLOSE (45_host_interface.md section 6). -/

namespace Sys2Proof.Machine

/-- OPEN's initialisation, the allocation having succeeded (R300). -/
def openState (s : State) : State :=
  periphDefaults (enterIdle
    { s with
      cap := s.cfgMult.toNat * s.par.unit
      rx := queueNew (s.cfgMult.toNat * s.par.unit)
      tx := queueNew (s.cfgMult.toNat * s.par.unit)
      bounce := Memory.cells s.par.bounceBase (nextBytes (bounceSize s.par) s.env)
      env := dropBytes (bounceSize s.par) s.env
      xferDir := .none
      pending := 0
      hwIdx := 0
      completed := 0
      dropped := 0
      readable := false
      writeable := false
      deadlineMiss := false
      isOpen := true })

/-- OPEN (R300): the draw alloc, true for ok. -/
def openDevice (s : State) : State :=
  if s.isOpen then raise .ctl .deviceBusy s
  else if nextBit s.env then done .ctl 0 (openState { s with env := dropBit s.env })
  else raise .ctl .resourceExhausted { s with env := dropBit s.env }

/-- CLOSE and CANCEL end a blocked READ with Interrupted on the RD port (R302, R266). -/
def interruptRead (s : State) : State :=
  match s.rdBlocked with
  | none => s
  | some _ => raise .rd .interrupted { s with rdBlocked := none }

/-- CLOSE's release of the buffers (R302). -/
def releaseState (s : State) : State :=
  { enterIdle s with
    cap := 0, rx := Queue.closed, tx := Queue.closed, bounce := [], readable := false, writeable := false, isOpen := false }

/-- CLOSE (R302): it closes whether or not the stop quiesced. -/
def closeDevice (s : State) : State :=
  if s.isOpen = false then raise .ctl .notOpen s
  else raise .ctl (if stopQuiesced s then .ok else .deviceBusy) (releaseState (interruptRead (stopTransfer s)))

/-- OPEN (R300). -/
def execOpenDev (s : State) : Host.Outcome State Fault Refusal := .next (openDevice s)

/-- CLOSE (R302). -/
def execCloseDev (s : State) : Host.Outcome State Fault Refusal := .next (closeDevice s)

end Sys2Proof.Machine
end

