-- ==== Sys2Proof/Machine/Dispatcher.lean ====
section
/-! DEFINITION. The completion-event dispatcher (42_completion_dispatcher.md): RxComplete and TxComplete. -/

namespace Sys2Proof.Machine

/-- Whether this completion is contended: a draw if CONTENTION_DROP, else never (R202, R205, D21). -/
def contended (s : State) : Bool := s.par.contentionDrop && nextBit s.env

/-- The state after the contention draw, if there is one. -/
def contentionDrawn (s : State) : State := if s.par.contentionDrop then { s with env := dropBit s.env } else s

/-- The segment an RX completion reads (R201). -/
def rxSegment (s : State) : Nat := s.completed.toNat % s.par.nSeg

/-- The segment a TX completion refills (R201). -/
def txSegment (s : State) : Nat := (s.completed.toNat + s.par.txFillOffset) % s.par.nSeg

/-- One more dropped segment, modulo 2^32 (R202, R205, R210). -/
def countDrop (s : State) : State := { s with dropped := s.dropped + 1 }

/-- The end of every RX completion, moved or dropped (R202, R204). -/
def rxFinish (s : State) : State := notify { s with readable := true, completed := s.completed + 1 }

/-- The end of every TX completion, moved or dropped (R205, R207). -/
def txFinish (s : State) : State := notify { s with writeable := true, completed := s.completed + 1 }

/-- The RX queue has room for a unit (R203). -/
def rxHasRoom (s : State) : Bool := decide (s.rx.count + s.par.unit ≤ s.cap)

/-- The TX queue holds a unit (R206). -/
def txHasUnit (s : State) : Bool := decide (s.par.unit ≤ s.tx.count)

/-- RX: copy the segment into the queue (R202). -/
def rxMove (s : State) : Host.Outcome State Fault Refusal :=
  match memRead s (segAddr s.par (rxSegment s)) s.par.unit with
  | none => .fault .bounceAccess
  | some bs => .next (rxFinish { s with rx := queuePush s.cap s.rx bs })

/-- TX: copy a unit out of the queue into the segment (R205). -/
def txMove (s : State) : Host.Outcome State Fault Refusal :=
  match memWrite s (segAddr s.par (txSegment s)) (popBytes s.cap s.tx s.par.unit) with
  | none => .fault .bounceAccess
  | some s' => .next (txFinish { s' with tx := queuePop s.cap s.tx s.par.unit })

/-- RxComplete (R202, R203). -/
def rxComplete (s : State) : Host.Outcome State Fault Refusal :=
  if !contended s && rxHasRoom s then rxMove (contentionDrawn (reArm s))
  else .next (rxFinish (countDrop (contentionDrawn (reArm s))))

/-- TxComplete (R205, R206). -/
def txComplete (s : State) : Host.Outcome State Fault Refusal :=
  if !contended (txRestartCheck s) && txHasUnit s then txMove (contentionDrawn (txRestartCheck s))
  else .next (txFinish (countDrop (contentionDrawn (txRestartCheck s))))

/-- One dispatcher step on a posted completion (R200). -/
def dispatchOne (s : State) : Host.Outcome State Fault Refusal :=
  if s.xferDir = .devToMem then rxComplete { s with pending := s.pending - 1 }
  else txComplete { s with pending := s.pending - 1 }

end Sys2Proof.Machine
end

