-- ==== Sys2Proof/Machine/Events.lean ====
section
/-! DEFINITION. The events: SEG_DONE (42_completion_dispatcher.md R200), REFRESH_TICK (41_dma_segment_manager.md R186), CANCEL (44_notification.md R266). -/

namespace Sys2Proof.Machine

/-- SEG_DONE (R200): the dispatcher handles one posted completion; with none posted it has no effect (R304, log 10). -/
def execSegDone (s : State) : Host.Outcome State Fault Refusal :=
  if 0 < s.pending then dispatchOne s else .next s

/-- The re-arm attempts of a tick (R186). -/
def refreshPoll (s : State) : Bool × Env := pollFor true s.par.refreshRetries s.env

/-- REFRESH_TICK (R186). -/
def refresh (s : State) : State :=
  if s.xferDir = .none then s
  else if s.par.refreshThreshold < s.xferRemaining then s
  else if (refreshPoll s).1 then reArm { s with env := (refreshPoll s).2 }
  else { s with env := (refreshPoll s).2 }

/-- REFRESH_TICK (R186). -/
def execRefreshTick (s : State) : Host.Outcome State Fault Refusal := .next (refresh s)

/-- CANCEL (R266). -/
def execCancel (s : State) : Host.Outcome State Fault Refusal := .next (interruptRead s)

end Sys2Proof.Machine
end

