-- ==== Sys2Proof/Machine/Settings.lean ====
section
/-! DEFINITION. The configuration and diagnostic commands (45_host_interface.md sections 4 and 5): GET_UNIT, GET_MULT, SET_MULT, GET_OFFS, SET_OFFS, GET_STAT. -/

namespace Sys2Proof.Machine

/-- GET_UNIT (R291). -/
def execGetUnit (s : State) : Host.Outcome State Fault Refusal := .next (done .ctl (BitVec.ofNat 32 s.par.unit) s)

/-- GET_MULT (R292). -/
def execGetMult (s : State) : Host.Outcome State Fault Refusal := .next (done .ctl (BitVec.ofNat 32 s.cfgMult.toNat) s)

/-- SET_MULT (R293, R296). -/
def execSetMult (v : BitVec 8) (s : State) : Host.Outcome State Fault Refusal :=
  .next (if multLegal v then done .ctl 0 { s with cfgMult := v } else raise .ctl .invalidParameter s)

/-- GET_OFFS (R294). -/
def execGetOffs (s : State) : Host.Outcome State Fault Refusal := .next (done .ctl (offsetsWord s.cfgOffa s.cfgOffb) s)

/-- SET_OFFS (R295, R296). -/
def execSetOffs (a b : Int) (s : State) : Host.Outcome State Fault Refusal :=
  .next (if offsetsAccepted s.par a b then done .ctl 0 { s with cfgOffa := a, cfgOffb := b } else raise .ctl .invalidParameter s)

/-- GET_STAT (R298, R62). -/
def execGetStat (i : BitVec 4) (s : State) : Host.Outcome State Fault Refusal :=
  .next (match csr s i with
    | none => raise .ctl .invalidParameter s
    | some v => done .ctl v s)

end Sys2Proof.Machine
end

