-- ==== Sys2Proof/Machine/Stream.lean ====
section
/-! DEFINITION. The byte-stream commands (45_host_interface.md sections 1 to 3) and READ_WAKE (44_notification.md R265). -/

namespace Sys2Proof.Machine

/-- Take up to `n` bytes from RX and answer with them on the RD port (R280, R281, R265). -/
def takeRx (n : Word) (s : State) : State :=
  let out := popBytes s.cap s.rx n.toNat
  let s' := { s with rx := queuePop s.cap s.rx n.toNat }
  respond .rd .ok (BitVec.ofNat 32 out.length) out { s' with readable := readableAfterPop s' }

/-- READ (R280, R283, R264). -/
def readRx (nb : Bool) (n : Word) (s : State) : State :=
  if s.isOpen = false then raise .rd .notOpen s
  else if n = 0 then done .rd 0 s
  else if 0 < s.rx.count then takeRx n s
  else if nb then done .rd 0 s
  else { s with rdBlocked := some n }

/-- READ_WAKE (R265): no step while RX is empty. -/
def readWake (n : Word) (s : State) : State :=
  if 0 < s.rx.count then takeRx n { s with rdBlocked := none } else s

/-- WRITE's push and its flag (R284, R285). -/
def writePush (data : List Byte) (s : State) : State :=
  let s' := { s with tx := queuePush s.cap s.tx data }
  { s' with writeable := writeableAfterPush s' }

/-- The lazy TX start is due (R286). -/
def lazyStartDue (s : State) : Bool := decide (s.mode = .tx) && decide (s.xferDir = .none) && decide (0 < s.tx.count)

/-- WRITE's end, `k` bytes accepted: the lazy TX start if it is due, then the response (R284, R286). -/
def writeFinish (k : Word) (s : State) : State :=
  if lazyStartDue s then
    if startResult s = .ok then done .wr k (startTransfer .memToDev s)
    else respond .wr (startResult s) k [] (enterIdle (startTransfer .memToDev s))
  else done .wr k s

/-- WRITE (R284). -/
def writeTx (data : List Byte) (s : State) : State :=
  if s.isOpen = false then raise .wr .notOpen s
  else writeFinish (BitVec.ofNat 32 (pushCount s.cap s.tx data.length)) (writePush data s)

/-- FLUSH (R288). -/
def flushRx (s : State) : State :=
  if s.isOpen = false then raise .wr .notOpen s
  else done .wr 0 { s with rx := queueDropAll s.rx, readable := false }

/-- READ (R280). -/
def execRead (nb : Bool) (n : Word) (s : State) : Host.Outcome State Fault Refusal := .next (readRx nb n s)

/-- WRITE (R284). -/
def execWrite (data : List Byte) (s : State) : Host.Outcome State Fault Refusal := .next (writeTx data s)

/-- FLUSH (R288). -/
def execFlush (s : State) : Host.Outcome State Fault Refusal := .next (flushRx s)

/-- POLL (R289, R290). -/
def execPoll (s : State) : Host.Outcome State Fault Refusal :=
  .next (if s.isOpen = false then raise .ctl .notOpen s else done .ctl (pollMask s) s)

end Sys2Proof.Machine
end

