-- ==== Sys2Proof/Machine/Dispatch.lean ====
section
/-! DEFINITION. One arm per instruction: the meaning each constructor of Instr has. -/

namespace Sys2Proof.Machine

def exec (i : Instr) (s : State) : Host.Outcome State Fault Refusal :=
  match i with
  | .openDev => Sys2Proof.Machine.execOpenDev s
  | .closeDev => Sys2Proof.Machine.execCloseDev s
  | .getMode => Sys2Proof.Machine.execGetMode s
  | .setMode m => Sys2Proof.Machine.execSetMode m s
  | .getUnit => Sys2Proof.Machine.execGetUnit s
  | .getMult => Sys2Proof.Machine.execGetMult s
  | .setMult v => Sys2Proof.Machine.execSetMult v s
  | .getOffs => Sys2Proof.Machine.execGetOffs s
  | .setOffs a b => Sys2Proof.Machine.execSetOffs a b s
  | .poll => Sys2Proof.Machine.execPoll s
  | .getStat j => Sys2Proof.Machine.execGetStat j s
  | .read nb n => Sys2Proof.Machine.execRead nb n s
  | .write data => Sys2Proof.Machine.execWrite data s
  | .flush => Sys2Proof.Machine.execFlush s
  | .segDone => Sys2Proof.Machine.execSegDone s
  | .refreshTick => Sys2Proof.Machine.execRefreshTick s
  | .cancel => Sys2Proof.Machine.execCancel s

end Sys2Proof.Machine
end

