-- ==== Sys2Proof/Machine/Agents.lean ====
section
/-! DEFINITION. The agents' steps (00_scope.md R11): taking a command from a port, the internal steps, and which agent moves next (60_exceptions.md R345). -/

namespace Sys2Proof.Machine

/-- An illegal word: IllegalCommand on a host port, ignored on the event input (R120). -/
def answerIllegal (p : Port) (s : State) : State :=
  match p with
  | .ctl => raise .ctl .illegalCommand s
  | .rd => raise .rd .illegalCommand s
  | .wr => raise .wr .illegalCommand s
  | .evt => s

/-- A port takes its next command and runs it; while the command has not arrived whole, nothing happens (R31, R116, log 12). -/
def runPort (p : Port) (s : State) : Host.Outcome State Fault Refusal :=
  match decodeBytes p (s.ports.input p) with
  | .incomplete => .next s
  | .illegal _ rest => .next (answerIllegal p (setInput p rest s))
  | .instr i rest => exec i (setInput p rest s)

/-- The step of HOST_RD: the next command, or READ_WAKE while a READ holds the port (R264, R265). -/
def runRd (s : State) : Host.Outcome State Fault Refusal :=
  match s.rdBlocked with
  | none => runPort .rd s
  | some n => .next (readWake n s)

/-- One step of an agent; an agent whose step is not enabled leaves the state as it is (R91, log 3). -/
def runAgent (g : Agent) (s : State) : Host.Outcome State Fault Refusal :=
  match g with
  | .hostCtl => runPort .ctl s
  | .hostRd => runRd s
  | .hostWr => runPort .wr s
  | .hostSig => exec .cancel s
  | .dma => dmaSegment s
  | .dispatch => exec .segDone s
  | .tick => exec .refreshTick s
  | .eventInput => runPort .evt s

/-- The agent that moves next: settled beforehand, or else free (R345, log 3). -/
def nextAgent (e : Env) : Agent :=
  match e.turns with
  | g :: _ => g
  | [] => Config.freeAgent e.drawn

/-- Use up one turn; a free choice of agent counts as a draw. -/
def dropTurn (e : Env) : Env :=
  match e.turns with
  | _ :: gs => { e with turns := gs }
  | [] => { e with drawn := e.drawn + 1 }

/-- The state once the agent of this step is chosen. -/
def turnTaken (s : State) : State := { s with env := dropTurn s.env }

/-- One transition of the block (R87, R91); a parameter set that fails R10 is refused (R10, R357, log 13). -/
def stepBlock (s : State) : Host.Outcome State Fault Refusal :=
  if paramsLegal s.par then runAgent (nextAgent s.env) (turnTaken s) else .refused .parameterSet

/-- The agent that takes commands from an input. -/
def portAgent : Port → Agent
  | .ctl => .hostCtl
  | .rd => .hostRd
  | .wr => .hostWr
  | .evt => .eventInput

/-- The state with an instruction of the opcode table next on the port it belongs to, and that port's agent next to move; no READ holds the RD port (log 17). -/
def placeCommand (s : State) (nbits w : Nat) : State :=
  let p := homePort (opField (tableWord w))
  let s' := setInput p (tableBytes nbits w ++ s.ports.input p) s
  { s' with
    env := { s'.env with turns := portAgent p :: s'.env.turns }
    rdBlocked := if p = .rd then none else s'.rdBlocked }

end Sys2Proof.Machine
end

