-- ==== Sys2Proof/Machine/Step.lean ====
section
/-! DEFINITION. The machine's step, and placing an instruction where the next step takes it. -/

namespace Sys2Proof.Machine

/-- One transition of one agent (00_scope.md R11, 20_memory.md R87). -/
def step (s : State) : Host.Outcome State Fault Refusal := stepBlock s

/-- The state whose next step takes and runs the instruction with bits `w` (log 17). -/
def State.withFetchWord (s : State) (nbits w : Nat) : State := placeCommand s nbits w

end Sys2Proof.Machine
end

