-- ==== Sys2Proof/Safety.lean ====
section
/-! DEFINITION. What a sound state is: the invariants of 10_state.md R63 with the facts of R36, R44, R46 and R58, the launch premise OpenIdle (R383), and the progress invariants of 41, 42, 60 and 70. -/

namespace Sys2Proof.Machine

/-- A queue of capacity `cap` is sound (R231, R63 item 3; its store has `cap` bytes, R38). -/
structure QueueOk (cap : Nat) (q : Queue) : Prop where
  /-- The store has `cap` bytes. -/
  store : q.store.length = cap
  /-- The count does not exceed the capacity. -/
  count : q.count ≤ cap
  /-- The read cursor is inside the store. -/
  rd : 0 < cap → q.rd < cap
  /-- The write cursor stands `count` bytes after the read cursor. -/
  wr : 0 < cap → q.wr = (q.rd + q.count) % cap

/-- What a closed device holds (R63 item 1). -/
structure ClosedQuiet (s : State) : Prop where
  mode : s.mode = .idle
  xferDir : s.xferDir = .none
  cap : s.cap = 0
  rx : s.rx.count = 0
  tx : s.tx.count = 0
  pending : s.pending = 0
  rdBlocked : s.rdBlocked = none
  sel : s.sel = s.par.selHiz
  periphEn : s.periphEn = false

/-- The addresses of the bounce region, in order (R81). -/
def bounceAddrs (p : Params) : List Nat := (List.range (bounceSize p)).map (fun i => p.bounceBase + i)

/-- The invariants every reachable state satisfies. -/
structure Inv (s : State) : Prop where
  /-- The parameters meet R10. -/
  params : paramsLegal s.par = true
  /-- R63 item 1. -/
  closed : s.isOpen = false → ClosedQuiet s
  /-- R63 item 2. -/
  capacity : s.isOpen = true → ∃ m, 2 ≤ m ∧ m ≤ 32 ∧ s.cap = m * s.par.unit
  /-- R63 item 3, RX. -/
  rx : QueueOk s.cap s.rx
  /-- R63 item 3, TX. -/
  tx : QueueOk s.cap s.tx
  /-- R63 item 4, DevToMem. -/
  devToMem : s.xferDir = .devToMem → s.mode = .rx0 ∨ s.mode = .rx1
  /-- R63 item 4, MemToDev. -/
  memToDev : s.xferDir = .memToDev → s.mode = .tx
  /-- R63 item 5. -/
  noPending : s.xferDir = .none → s.pending = 0
  /-- R63 item 6. -/
  selector : s.mode = .idle ↔ s.sel = s.par.selHiz
  /-- R63 item 7. -/
  blocked : ∀ n, s.rdBlocked = some n → n ≠ 0 ∧ s.isOpen = true
  /-- The bounce bytes are those of the region while open, and none while closed (R46, R81). -/
  bounce : s.bounce.map Prod.fst = if s.isOpen then bounceAddrs s.par else []
  /-- R44. -/
  hwIdx : s.hwIdx < s.par.nSeg
  /-- R58: the held multiplier is legal. -/
  mult : multLegal s.cfgMult = true
  /-- R36, R59: the held offsets are legal. -/
  offsets : offsetsAccepted s.par s.cfgOffa s.cfgOffb = true

/-- The named launch premise OpenIdle (R383).
Its clause "no command outstanding on any port" is `rdBlocked`: every other command is answered in the step that takes it, and bytes waiting untaken on an input are no command outstanding yet (DESIGN CHOICE, log 19). -/
structure OpenIdle (s : State) : Prop where
  isOpen : s.isOpen = true
  mode : s.mode = .idle
  sel : s.sel = s.par.selHiz
  xferDir : s.xferDir = .none
  pending : s.pending = 0
  hwIdx : s.hwIdx = 0
  cap : s.cap = s.cfgMult.toNat * s.par.unit
  rx : s.rx.count = 0
  tx : s.tx.count = 0
  completed : s.completed = 0
  dropped : s.dropped = 0
  readable : s.readable = false
  writeable : s.writeable = false
  deadlineMiss : s.deadlineMiss = false
  rdBlocked : s.rdBlocked = none
  periphEn : s.periphEn = false
  periphDir : s.periphDir = .none
  xferRemaining : s.xferRemaining = 0
  bounce : s.bounce.map Prod.fst = bounceAddrs s.par

/-- While a transfer runs, the DMA engine's index follows from the handled and the pending completions (R201, R209). -/
def SegmentsTracked (s : State) : Prop :=
  s.xferDir ≠ .none → s.hwIdx = (s.completed.toNat + s.pending) % s.par.nSeg

/-- DEADLINE_MISS clear: at most one completion has been pending at any time since the start (R42, R390). -/
def DeadlineTracked (s : State) : Prop := s.deadlineMiss = false → s.pending ≤ 1

/-- The peripheral's registers while a transfer runs: enabled in its direction (R170, R52), and at most L segments left (R185). -/
def PeripheralTracked (s : State) : Prop :=
  (s.xferDir ≠ .none → s.periphEn = true ∧ s.periphDir = s.xferDir) ∧ s.xferRemaining ≤ s.par.xferLen

/-- In an RX transfer every segment taken off the remaining count since the last re-arm has a completion pending (R357). -/
def RxStallHasCompletions (s : State) : Prop :=
  s.xferDir = .devToMem → s.par.xferLen ≤ s.xferRemaining + s.pending

/-- The window W of R390. -/
def lapWindow (s : State) : Nat :=
  if s.xferDir = .memToDev ∧ 1 ≤ s.par.txFillOffset then s.par.txFillOffset else s.par.nSeg

/-- The premise `DispatchKeepsUp` at one DMA segment step (R390). -/
def DispatchKeepsUp (s : State) : Prop := s.pending ≤ lapWindow s - 1

/-- The premise `RefreshKeepsUp` at one DMA segment step: the step does not leave the remaining count at 0 (R391). -/
def RefreshKeepsUp (s : State) : Prop := 1 < s.xferRemaining

end Sys2Proof.Machine
end

