-- ==== Sys2Proof/Certificates/Slice0/Obligations.lean ====
section
/-! DEFINITION. The statements for the provers, from the numbered rules of spec/. -/

namespace Sys2Proof.Claims

open Sys2Proof.Machine

/-- The rest of the stream after the head of a port's stream, where a whole command stood there. -/
def restOf (f : Fetched) : Option (List Byte) :=
  match f with
  | .incomplete => none
  | .illegal _ rest => some rest
  | .instr _ rest => some rest

/-- An opcode R118 leaves unassigned: reserved, or in the custom space. -/
def unassigned (n : Nat) : Prop :=
  n = 0x00 ∨ (0x03 ≤ n ∧ n ≤ 0x0F) ∨ (0x19 ≤ n ∧ n ≤ 0x1F) ∨ (0x21 ≤ n ∧ n ≤ 0x2F) ∨ (0x31 ≤ n ∧ n ≤ 0x3F)
    ∨ (0x43 ≤ n ∧ n ≤ 0xEF) ∨ (0xF0 ≤ n ∧ n ≤ 0xFF)

/-- Sample number `i` (from 0) of the draws left. -/
def sample (e : Env) : Nat → Bool
  | 0 => nextBit e
  | i + 1 => sample (dropBit e) i

/-- The draws left after `i` one-bit draws. -/
def dropBits (e : Env) : Nat → Env
  | 0 => e
  | i + 1 => dropBits (dropBit e) i

/-- A response with no data. -/
def plain (st : Status) (v : Word) : Response := { status := st, value := v, data := [] }

/-- One operation on a stream queue. -/
inductive QueueOp where
  | push (b : List Byte)
  | pop (m : Nat)

/-- A run of queue operations: the queue after it, the bytes its pushes accepted, the bytes its pops returned. -/
def runQueue (cap : Nat) (q : Queue) : List QueueOp → Queue × List Byte × List Byte
  | [] => (q, [], [])
  | .push b :: ops =>
    let r := runQueue cap (queuePush cap q b) ops
    (r.1, b.take (pushCount cap q b.length) ++ r.2.1, r.2.2)
  | .pop m :: ops =>
    let r := runQueue cap (queuePop cap q m) ops
    (r.1, r.2.1, popBytes cap q m ++ r.2.2)

/-- The responses a host port has sent since reset, oldest first. -/
def responses (s : State) (p : Port) : List Response :=
  match p with
  | .ctl => s.ports.ctlOut
  | .rd => s.ports.rdOut
  | .wr => s.ports.wrOut
  | .evt => []

/-- Every data byte the RD port has sent since reset, in order. -/
def readBytesSent (s : State) : List Byte := s.ports.rdOut.flatMap Response.data

/-- `m'` is `m` with exactly the bytes `bs` stored from address `a` on: the same addresses, the bytes read back, every other address unchanged. -/
def Stored (m m' : Memory) (a : Nat) (bs : List Byte) : Prop :=
  m'.map Prod.fst = m.map Prod.fst ∧ (∀ i, (h : i < bs.length) → Memory.read m' (a + i) = some bs[i]) ∧
    ∀ c, (c < a ∨ a + bs.length ≤ c) → Memory.read m' c = Memory.read m c

/-- The bytes `bs` stand in `m` from address `a` on. -/
def Holds (m : Memory) (a : Nat) (bs : List Byte) : Prop :=
  ∀ i, (h : i < bs.length) → Memory.read m (a + i) = some bs[i]

/-- The one ACTIVE sample of a TX completion and what it restarts (R188). -/
def afterRestartCheck (s : State) : State :=
  if nextBit s.env then { s with env := dropBit s.env }
  else { s with env := dropBit s.env, xferRemaining := s.par.xferLen, periphEn := true, periphDir := .memToDev }

/-- The draws left after a completion's contention draw, if there is one. -/
def afterContention (p : Params) (e : Env) : Env := if p.contentionDrop then dropBit e else e

end Sys2Proof.Claims

open Sys2Proof Sys2Proof.Machine Sys2Proof.Claims

/-! ## Encoding (30_encoding.md) -/

/-- Every well-formed command or event decodes from its encoding, whatever follows it on the stream. -/
def Obligations.DecodeOfEncodeIsTheInstruction : Prop :=
  ∀ (i : Instr) (rest : List Byte), i.wellFormed = true → decodeBytes i.port (encode i ++ rest) = .instr i rest

/-- Whatever decodes is well-formed, is on its own port, and was sent as its encoding: no two byte strings stand for one command. -/
def Obligations.DecodedStreamIsTheEncoding : Prop :=
  ∀ (p : Port) (bytes rest : List Byte) (i : Instr), decodeBytes p bytes = .instr i rest →
    i.wellFormed = true ∧ i.port = p ∧ bytes = encode i ++ rest

/-- The worked encodings of R125, both ways: what each instruction encodes to, and what each word decodes to. -/
def Obligations.WorkedEncodingsAgree : Prop :=
  encode (.setMode .rx0) = wordBytes 0x11000001 ∧ encode (.setMode .tx) = wordBytes 0x11000003 ∧
  encode (.read true 8) = wordBytes 0x20000001 ++ wordBytes 0x00000008 ∧
  encode (.write [0xDE, 0xAD, 0xBE, 0xEF]) = [0x00, 0x00, 0x00, 0x30, 0x04, 0x00, 0x00, 0x00, 0xDE, 0xAD, 0xBE, 0xEF] ∧
  wordBytes 0x30000000 ++ wordBytes 0x00000004 = [0x00, 0x00, 0x00, 0x30, 0x04, 0x00, 0x00, 0x00] ∧
  encode .flush = wordBytes 0x30000001 ∧ encode (.setMult 4) = wordBytes 0x14000004 ∧
  encode (.setOffs 2 3) = wordBytes 0x16000032 ∧ encode (.setOffs (-1) 4) = wordBytes 0x1600004F ∧
  encode (.getStat 6) = wordBytes 0x18000006 ∧
  decodeBytes .ctl (wordBytes 0x11000001) = .instr (.setMode .rx0) [] ∧
  decodeBytes .ctl (wordBytes 0x11000003) = .instr (.setMode .tx) [] ∧
  decodeBytes .rd (wordBytes 0x20000001 ++ wordBytes 0x00000008) = .instr (.read true 8) [] ∧
  decodeBytes .wr (wordBytes 0x30000001) = .instr .flush [] ∧
  decodeBytes .ctl (wordBytes 0x14000004) = .instr (.setMult 4) [] ∧
  decodeBytes .ctl (wordBytes 0x16000032) = .instr (.setOffs 2 3) [] ∧
  decodeBytes .ctl (wordBytes 0x1600004F) = .instr (.setOffs (-1) 4) [] ∧
  decodeBytes .ctl (wordBytes 0x18000006) = .instr (.getStat 6) [] ∧
  decodeBytes .wr [0x00, 0x00, 0x00, 0x30, 0x04, 0x00, 0x00, 0x00, 0xDE, 0xAD, 0xBE, 0xEF]
    = .instr (.write [0xDE, 0xAD, 0xBE, 0xEF]) []

/-- R117 to R119: an unassigned opcode is illegal on every port, whatever its other bits and what follows; an assigned one is legal exactly on its own port with its format's reserved bits zero. -/
def Obligations.WordLegality : Prop :=
  ∀ (p : Port) (cw lw : Word) (data : List Byte),
    (unassigned (opField cw).toNat → ∃ why, decodeWord p cw lw data = .error why) ∧
    ∀ o : Opcode, opcodeOf (opField cw) = some o →
      ((∃ i, decodeWord p cw lw data = .ok i) ↔ o.port = p ∧ cw &&& o.format.reserved = 0)

/-- R116: on a host port the next command starts where OP and CW[0] alone say, legal or not. -/
def Obligations.CommandLengthByOpcodeAlone : Prop :=
  ∀ (p : Port) (cw lw : Word) (data tail : List Byte), p ≠ .evt →
    (opField cw = 0x20 → restOf (decodeBytes p (wordBytes cw ++ (wordBytes lw ++ tail))) = some tail) ∧
    (opField cw = 0x30 → cw.getLsbD 0 = false → data.length = lw.toNat →
      restOf (decodeBytes p (wordBytes cw ++ (wordBytes lw ++ (data ++ tail)))) = some tail) ∧
    (opField cw ≠ 0x20 → ¬ (opField cw = 0x30 ∧ cw.getLsbD 0 = false) →
      restOf (decodeBytes p (wordBytes cw ++ tail)) = some tail)

/-- R120: an illegal word on a host port is answered IllegalCommand with value 0 and changes nothing else; on the event input it is ignored. -/
def Obligations.IllegalWordAnsweredAndSkipped : Prop :=
  ∀ (p : Port) (s : State) (why : Reject) (rest : List Byte), decodeBytes p (s.ports.input p) = .illegal why rest →
    runPort p s = .next { s with ports :=
      if p = .evt then s.ports.setInput p rest else (s.ports.setInput p rest).answer p (plain .illegalCommand 0) }

/-! ## The step (00_scope.md R11, 60_exceptions.md R345) -/

/-- A step whose turn is a port's, with a whole legal command at the head of that port's stream, is exec of it after the stream and the turn have moved on; a READ must not hold the RD port. -/
def Obligations.StepRunsTheDecodedCommand : Prop :=
  ∀ (s : State) (p : Port) (i : Instr) (rest : List Byte) (ts : List Agent), paramsLegal s.par = true →
    s.env.turns = portAgent p :: ts → (p = .rd → s.rdBlocked = none) →
    decodeBytes p (s.ports.input p) = .instr i rest →
    step s = exec i { s with env := { s.env with turns := ts }, ports := s.ports.setInput p rest }

/-- A step of the event agents is exec of their event; a step of the DMA agent is the segment step; beyond the settled turns the agent is a free choice. -/
def Obligations.StepRunsTheAgents : Prop :=
  ∀ (s : State) (ts : List Agent), paramsLegal s.par = true →
    (s.env.turns = .hostSig :: ts → step s = exec .cancel { s with env := { s.env with turns := ts } }) ∧
    (s.env.turns = .tick :: ts → step s = exec .refreshTick { s with env := { s.env with turns := ts } }) ∧
    (s.env.turns = .dispatch :: ts → step s = exec .segDone { s with env := { s.env with turns := ts } }) ∧
    (s.env.turns = .dma :: ts → step s = dmaSegment { s with env := { s.env with turns := ts } }) ∧
    (s.env.turns = [] → step s = runAgent (Config.freeAgent s.env.drawn) { s with env := { s.env with drawn := s.env.drawn + 1 } })

/-- R10: a parameter set that fails one of its constraints is refused; one that meets them all, and R8's ADDR_W ≥ 1 and SEL_HIZ distinct from every SELECTOR value, is not. -/
def Obligations.ParameterSetChecked : Prop :=
  ∀ s : State,
    let p := s.par
    let ok : Prop := 2 ≤ p.nSeg ∧ 1 ≤ p.unit ∧ (2 ≤ p.multReset.toNat ∧ p.multReset.toNat ≤ 32) ∧
      (-1 ≤ p.offaReset ∧ p.offaReset ≤ 4) ∧ (-1 ≤ p.offbReset ∧ p.offbReset ≤ 4) ∧ (p.offaReset, p.offbReset) ∈ p.offsLegal ∧
      1 ≤ p.quiesceBudget ∧ 1 ≤ p.startBudget ∧ 1 ≤ p.xferLen ∧ p.refreshThreshold < p.xferLen ∧
      1 ≤ p.refreshRetries ∧ p.txFillOffset < p.nSeg ∧ 2 ^ 32 % p.nSeg = 0 ∧ 32 * p.unit < 2 ^ 32 ∧
      p.bounceBase + p.nSeg * p.unit ≤ 2 ^ p.addrW
    (¬ ok → step s = .refused .parameterSet) ∧ (ok → 1 ≤ p.addrW →
      (∀ (m : Mode) (a b : Int), m ≠ .idle → -1 ≤ a → a ≤ 4 → -1 ≤ b → b ≤ 4 → selectorValue p m a b ≠ p.selHiz) →
      step s = runAgent (nextAgent s.env) (turnTaken s))

/-! ## Draws and the transfer (41_dma_segment_manager.md) -/

/-- R172: PollActive reports success exactly when one of the first B samples reads v, and it takes samples up to that one. -/
def Obligations.PollActiveSamplesUpToTheBudget : Prop :=
  ∀ (v : Bool) (b : Nat) (e : Env),
    ((pollFor v b e).1 = true ↔ ∃ i, i < b ∧ sample e i = v) ∧
    (∀ i, i < b → sample e i = v → (∀ j, j < i → sample e j ≠ v) → (pollFor v b e).2 = dropBits e (i + 1)) ∧
    ((∀ i, i < b → sample e i ≠ v) → (pollFor v b e).2 = dropBits e b)

/-- R170, R171, R173: StartTransfer's state and result in its three outcomes; StopTransfer's state, whatever its wait reports, and when it reports quiescence. -/
def Obligations.StartAndStopTransfer : Prop :=
  ∀ (d : Dir) (s : State),
    let w := pollFor true s.par.startBudget s.env
    let off : State := { s with
      completed := 0, dropped := 0, deadlineMiss := false, hwIdx := 0, pending := 0,
      periphEn := false, periphDir := .none, xferRemaining := 0 }
    startResult s = (if w.1 = false then Status.deviceBusy else if nextBit w.2 then .ok else .transferSetupFailed) ∧
    startTransfer d s =
      (if w.1 = false then { off with env := w.2 }
       else if nextBit w.2 then
        { off with env := dropBit w.2, periphEn := true, periphDir := d, xferRemaining := s.par.xferLen, xferDir := d }
       else { off with env := dropBit w.2 }) ∧
    stopTransfer s = { s with
      xferDir := .none, pending := 0, periphEn := false, periphDir := .none, xferRemaining := 0,
      env := (pollFor false s.par.quiesceBudget s.env).2 } ∧
    stopQuiesced s = (pollFor false s.par.quiesceBudget s.env).1

/-- R180: an enabled DevToMem segment step stores the drawn bytes in segment hw_idx, an enabled MemToDev one sends segment hw_idx on the wire; each posts a completion. -/
def Obligations.DmaSegmentStep : Prop :=
  (∀ s : State, Inv s → s.xferDir = .devToMem → s.periphEn = true → 0 < s.xferRemaining →
    ∃ m, Stored s.bounce m (segAddr s.par s.hwIdx) (nextBytes s.par.unit s.env) ∧
      dmaSegment s = .next { s with
        bounce := m, env := dropBytes s.par.unit s.env, hwIdx := (s.hwIdx + 1) % s.par.nSeg,
        xferRemaining := s.xferRemaining - 1, deadlineMiss := s.deadlineMiss || decide (0 < s.pending),
        pending := s.pending + 1 }) ∧
  ∀ s : State, Inv s → s.xferDir = .memToDev → s.periphEn = true → 0 < s.xferRemaining →
    ∃ bs, bs.length = s.par.unit ∧ Holds s.bounce (segAddr s.par s.hwIdx) bs ∧
      dmaSegment s = .next { s with
        txWire := s.txWire ++ bs, hwIdx := (s.hwIdx + 1) % s.par.nSeg,
        xferRemaining := s.xferRemaining - 1, deadlineMiss := s.deadlineMiss || decide (0 < s.pending),
        pending := s.pending + 1 }

/-! ## Events -/

/-- R202, R203: an RX completion with room for a whole unit and no contention appends the segment to the RX queue; any other drops it and leaves the queue alone. -/
def Obligations.RxCompletion : Prop :=
  (∀ s : State, Inv s → s.xferDir = .devToMem → 0 < s.pending → ¬ (s.par.contentionDrop = true ∧ nextBit s.env = true) →
    s.rx.count + s.par.unit ≤ s.cap →
    ∃ bs q, bs.length = s.par.unit ∧ Holds s.bounce (segAddr s.par (s.completed.toNat % s.par.nSeg)) bs ∧
      QueueOk s.cap q ∧ contents s.cap q = contents s.cap s.rx ++ bs ∧
      exec .segDone s = .next { s with
        pending := s.pending - 1, env := afterContention s.par s.env, xferRemaining := s.par.xferLen, rx := q,
        readable := true, notifyCount := s.notifyCount + 1, completed := s.completed + 1 }) ∧
  ∀ s : State, s.xferDir = .devToMem → 0 < s.pending →
    (s.par.contentionDrop = true ∧ nextBit s.env = true) ∨ s.cap < s.rx.count + s.par.unit →
    exec .segDone s = .next { s with
      pending := s.pending - 1, env := afterContention s.par s.env, xferRemaining := s.par.xferLen,
      dropped := s.dropped + 1, readable := true, notifyCount := s.notifyCount + 1, completed := s.completed + 1 }

/-- R205: after the restart check, a TX completion with a unit queued and no contention moves exactly U bytes from the front of the TX queue into the segment; any other drops and leaves segment and queue as they are. -/
def Obligations.TxCompletion : Prop :=
  (∀ s : State, Inv s → s.xferDir = .memToDev → 0 < s.pending →
    ¬ (s.par.contentionDrop = true ∧ nextBit (dropBit s.env) = true) → s.par.unit ≤ s.tx.count →
    ∃ m q, Stored s.bounce m (segAddr s.par ((s.completed.toNat + s.par.txFillOffset) % s.par.nSeg))
        ((contents s.cap s.tx).take s.par.unit) ∧
      QueueOk s.cap q ∧ contents s.cap q = (contents s.cap s.tx).drop s.par.unit ∧
      exec .segDone s = .next { afterRestartCheck s with
        pending := s.pending - 1, env := afterContention s.par (dropBit s.env), bounce := m, tx := q,
        writeable := true, notifyCount := s.notifyCount + 1, completed := s.completed + 1 }) ∧
  ∀ s : State, s.xferDir = .memToDev → 0 < s.pending →
    (s.par.contentionDrop = true ∧ nextBit (dropBit s.env) = true) ∨ s.tx.count < s.par.unit →
    exec .segDone s = .next { afterRestartCheck s with
      pending := s.pending - 1, env := afterContention s.par (dropBit s.env), dropped := s.dropped + 1,
      writeable := true, notifyCount := s.notifyCount + 1, completed := s.completed + 1 }

/-- What finds nothing to do changes nothing: an event (R304) with no completion posted (log 10), no transfer or no READ blocked; and the turn of an agent whose step is not enabled (log 3): a DMA segment step, and READ_WAKE with no RX bytes, which only uses the turn. -/
def Obligations.EventsWithNothingToDo : Prop :=
  ∀ s : State, (s.pending = 0 → exec .segDone s = .next s) ∧ (s.xferDir = .none → exec .refreshTick s = .next s) ∧
    (s.rdBlocked = none → exec .cancel s = .next s) ∧
    (s.xferDir = .none ∨ s.periphEn = false ∨ s.xferRemaining = 0 → dmaSegment s = .next s) ∧
    ∀ (n : Word) (ts : List Agent), paramsLegal s.par = true → s.env.turns = .hostRd :: ts → s.rdBlocked = some n →
      s.rx.count = 0 → step s = .next { s with env := { s.env with turns := ts } }

/-- R186: the refresh check. -/
def Obligations.RefreshTickReArms : Prop :=
  encode .refreshTick = wordBytes 0x41000000 ∧ ∀ s : State, exec .refreshTick s = .next
    (if s.xferDir = .none ∨ s.par.refreshThreshold < s.xferRemaining then s
     else { s with
       env := (pollFor true s.par.refreshRetries s.env).2
       xferRemaining := if (pollFor true s.par.refreshRetries s.env).1 then s.par.xferLen else s.xferRemaining })

/-- R266: CANCEL ends a blocked READ with Interrupted, value 0, and does nothing else. -/
def Obligations.CancelEndsTheBlockedRead : Prop :=
  encode .cancel = wordBytes 0x42000000 ∧ ∀ s : State, exec .cancel s = .next
    (match s.rdBlocked with
      | none => s
      | some _ => { s with rdBlocked := none, ports := s.ports.answer .rd (plain .interrupted 0) })

/-! ## SET_MODE and GET_MODE (40_mode_state_machine.md) -/

/-- SET_MODE on a closed device is NotOpen, and to the current mode a no-op that succeeds; neither takes a draw; so a SET_MODE that answered OK can be repeated (R88). -/
def Obligations.SetModeWithoutTransition : Prop :=
  ∀ (m : Mode) (s : State),
    (s.isOpen = false → exec (.setMode m) s = .next { s with ports := s.ports.answer .ctl (plain .notOpen 0) }) ∧
    (s.isOpen = true → m = s.mode → exec (.setMode m) s = .next { s with ports := s.ports.answer .ctl (plain .ok 0) }) ∧
    ∀ t : State, exec (.setMode m) s = .next t → t.ports.ctlOut = s.ports.ctlOut ++ [plain .ok 0] →
      exec (.setMode m) t = .next { t with ports := t.ports.answer .ctl (plain .ok 0) }

/-- SET_MODE IDLE from another mode, the peripheral quiescing in time: the stop's state, in Idle with SEL_HIZ, and nothing else changed. -/
def Obligations.SetModeIdleStops : Prop :=
  ∀ s : State, s.isOpen = true → s.mode ≠ .idle → stopQuiesced s = true →
    exec (.setMode .idle) s = .next { stopTransfer s with
      mode := .idle, sel := s.par.selHiz, ports := s.ports.answer .ctl (plain .ok 0) }

/-- R152: SET_MODE TX from another mode, the peripheral quiescing in time: the TX queue is reset, writeable set, one pulse; no transfer starts. -/
def Obligations.SetModeTxEntersTransmit : Prop :=
  ∀ s : State, s.isOpen = true → s.mode ≠ .tx → stopQuiesced s = true →
    exec (.setMode .tx) s = .next { stopTransfer s with
      tx := { s.tx with rd := 0, wr := 0, count := 0 }, writeable := true, notifyCount := s.notifyCount + 1,
      mode := .tx, sel := selectorValue s.par .tx s.cfgOffa s.cfgOffb, ports := s.ports.answer .ctl (plain .ok 0) }

/-- R153, R155: SET_MODE to a receive channel from another mode, the peripheral quiescing in time: the transfer starts at once and the mode is committed, or Idle with SEL_HIZ and the start's error. -/
def Obligations.SetModeReceiveStartsOrReverts : Prop :=
  ∀ (m : Mode) (s : State), m = .rx0 ∨ m = .rx1 → s.isOpen = true → s.mode ≠ m → stopQuiesced s = true →
    exec (.setMode m) s = .next
      (let u := startTransfer .devToMem (stopTransfer s)
       if startResult (stopTransfer s) = .ok then
        { u with
          mode := m, sel := selectorValue s.par m s.cfgOffa s.cfgOffb, ports := s.ports.answer .ctl (plain .ok 0) }
       else
        { u with
          mode := .idle, sel := s.par.selHiz, ports := s.ports.answer .ctl (plain (startResult (stopTransfer s)) 0) })

/-- R154: SET_MODE to another mode, the stop timing out: DeviceBusy, the transfer stopped, and the mode and selector kept or Idle by the draw fb. -/
def Obligations.SetModeBusyKeepsOrIdles : Prop :=
  ∀ (m : Mode) (s : State), s.isOpen = true → m ≠ s.mode → stopQuiesced s = false →
    exec (.setMode m) s = .next
      (let u := stopTransfer s
       let keep := nextBit u.env
       { u with
         env := dropBit u.env
         mode := if keep then s.mode else .idle
         sel := if keep then s.sel else s.par.selHiz
         ports := s.ports.answer .ctl (plain .deviceBusy 0) })

/-- R157: the transition table. -/
def Obligations.SetModeTransitionTable : Prop :=
  ∀ (m : Mode) (s : State), s.isOpen = true → ∃ t st, exec (.setMode m) s = .next t ∧
    t.ports.ctlOut = s.ports.ctlOut ++ [plain st 0] ∧
    (m = s.mode → t.mode = s.mode ∧ st = .ok) ∧
    (m ≠ s.mode → stopQuiesced s = true → m = .idle → t.mode = .idle ∧ st = .ok) ∧
    (m ≠ s.mode → stopQuiesced s = true → m = .tx → t.mode = .tx ∧ t.tx.count = 0 ∧ t.writeable = true ∧ st = .ok) ∧
    (m ≠ s.mode → stopQuiesced s = true → m = .rx0 ∨ m = .rx1 → startResult (stopTransfer s) = .ok →
      t.mode = m ∧ st = .ok) ∧
    (m ≠ s.mode → stopQuiesced s = true → m = .rx0 ∨ m = .rx1 → startResult (stopTransfer s) ≠ .ok →
      t.mode = .idle ∧ st = startResult (stopTransfer s) ∧ (st = .deviceBusy ∨ st = .transferSetupFailed)) ∧
    (m ≠ s.mode → stopQuiesced s = false → (t.mode = s.mode ∨ t.mode = .idle) ∧ st = .deviceBusy)

/-- R159: what SET_MODE leaves alone, on every path. -/
def Obligations.SetModeLeavesRxAndConfiguration : Prop :=
  ∀ (m : Mode) (s t : State), exec (.setMode m) s = .next t →
    t.rx = s.rx ∧ t.cfgMult = s.cfgMult ∧ t.cfgOffa = s.cfgOffa ∧ t.cfgOffb = s.cfgOffb ∧ t.readable = s.readable ∧
    t.rdBlocked = s.rdBlocked ∧ (m ≠ .tx ∨ s.mode = .tx → t.tx = s.tx)

/-! ## Configuration and diagnostics (45_host_interface.md, 10_state.md) -/

/-- R158, R291, R292, R294: each query answers its value and changes nothing else, open or closed. -/
def Obligations.QueriesAnswerTheirValue : Prop :=
  encode .getMode = wordBytes 0x10000000 ∧ encode .getUnit = wordBytes 0x12000000 ∧
  encode .getMult = wordBytes 0x13000000 ∧ encode .getOffs = wordBytes 0x15000000 ∧
  ∀ s : State,
    exec .getMode s = .next { s with ports := s.ports.answer .ctl (plain .ok
      (match s.mode with | .idle => 0 | .rx0 => 1 | .rx1 => 2 | .tx => 3)) } ∧
    exec .getUnit s = .next { s with ports := s.ports.answer .ctl (plain .ok (BitVec.ofNat 32 s.par.unit)) } ∧
    exec .getMult s = .next { s with ports := s.ports.answer .ctl (plain .ok (s.cfgMult.setWidth 32)) } ∧
    exec .getOffs s = .next { s with ports := s.ports.answer .ctl (plain .ok
      (BitVec.ofInt 32 ((s.cfgOffb % 16) * 16 + s.cfgOffa % 16))) }

/-- R293, R296: SET_MULT writes cfg_mult for 2 to 32 and otherwise answers InvalidParameter and writes nothing. -/
def Obligations.SetMultWritesLegalValues : Prop :=
  encode (.setMult 4) = wordBytes 0x14000004 ∧ ∀ (v : BitVec 8) (s : State), exec (.setMult v) s = .next
    (if v.toNat < 2 ∨ 32 < v.toNat then { s with ports := s.ports.answer .ctl (plain .invalidParameter 0) }
     else { s with cfgMult := v, ports := s.ports.answer .ctl (plain .ok 0) })

/-- R295, R296: SET_OFFS writes a pair in range that OFFS_LEGAL allows and otherwise answers InvalidParameter and writes nothing; the default OFFS_LEGAL allows exactly the pairs in range with a ≠ b. -/
def Obligations.SetOffsWritesLegalPairs : Prop :=
  encode (.setOffs 2 3) = wordBytes 0x16000032 ∧ (∀ (a b : Int) (s : State), exec (.setOffs a b) s = .next
    (if a < -1 ∨ a > 4 ∨ b < -1 ∨ b > 4 ∨ (a, b) ∉ s.par.offsLegal then { s with ports := s.ports.answer .ctl (plain .invalidParameter 0) }
     else { s with cfgOffa := a, cfgOffb := b, ports := s.ports.answer .ctl (plain .ok 0) })) ∧
  ∀ a b : Int, (a, b) ∈ Params.p0.offsLegal ↔ -1 ≤ a ∧ a ≤ 4 ∧ -1 ≤ b ∧ b ≤ 4 ∧ a ≠ b

/-- R298, R54, R62: GET_STAT answers the register at its index, or InvalidParameter for 0xA to 0xF, and changes nothing else. -/
def Obligations.GetStatReadsTheRegisterMap : Prop :=
  encode (.getStat 6) = wordBytes 0x18000006 ∧ ∀ (i : BitVec 4) (s : State), exec (.getStat i) s = .next { s with
    ports := s.ports.answer .ctl
     (if i.toNat ≥ 0xA then plain .invalidParameter 0
     else plain .ok
      (if i = 0x0 then (match s.mode with | .idle => 0 | .rx0 => 1 | .rx1 => 2 | .tx => 3)
       else if i = 0x1 then statusWord s
       else if i = 0x2 then BitVec.ofNat 32 s.par.unit
       else if i = 0x3 then s.cfgMult.setWidth 32
       else if i = 0x4 then BitVec.ofInt 32 ((s.cfgOffb % 16) * 16 + s.cfgOffa % 16)
       else if i = 0x5 then s.completed
       else if i = 0x6 then s.dropped
       else if i = 0x7 then BitVec.ofNat 32 s.rx.count
       else if i = 0x8 then BitVec.ofNat 32 s.tx.count
       else BitVec.ofNat 32 s.cap)) }

/-- R56: every bit of STATUS, the register at index 1. -/
def Obligations.StatusBits : Prop :=
  ∀ s : State, let w := statusWord s
    csr s 1 = some w ∧
    w.getLsbD 0 = s.isOpen ∧ w.getLsbD 1 = s.readable ∧ w.getLsbD 2 = s.writeable ∧
    w.getLsbD 3 = decide (s.xferDir = .devToMem) ∧ w.getLsbD 4 = decide (s.xferDir = .memToDev) ∧
    w.getLsbD 5 = s.deadlineMiss ∧ w.getLsbD 6 = decide (s.rdBlocked ≠ none) ∧ (∀ j, 7 ≤ j → w.getLsbD j = false) ∧
    ¬ (w.getLsbD 3 = true ∧ w.getLsbD 4 = true)

/-- R289, R290: POLL answers both bits from the RX queue, and changes nothing else. -/
def Obligations.PollReadsTheRxQueue : Prop :=
  encode .poll = wordBytes 0x17000000 ∧ ∀ s : State, exec .poll s = .next { s with
    ports := s.ports.answer .ctl
     (if s.isOpen = false then plain .notOpen 0
     else plain .ok (BitVec.ofNat 32 ((if 0 < s.rx.count then 1 else 0) + (if s.rx.count < s.cap then 2 else 0)))) }

/-! ## Byte streams (45_host_interface.md, 44_notification.md) -/

/-- R280, R282, R283: READ with data queued answers up to LEN of the oldest bytes and removes exactly those, in every mode, blocking or not, and clears readable if it empties the queue; with nothing to take it answers NotOpen, answers OK with 0, or blocks without a response. -/
def Obligations.ReadTakesTheOldestBytes : Prop :=
  encode (.read false 8) = wordBytes 0x20000000 ++ wordBytes 8 ∧ encode (.read true 8) = wordBytes 0x20000001 ++ wordBytes 8 ∧
  (∀ (nb : Bool) (n : Word) (s : State), s.isOpen = true → n ≠ 0 → 0 < s.rx.count →
    ∃ q, contents s.cap q = (contents s.cap s.rx).drop n.toNat ∧ q.store = s.rx.store ∧ q.wr = s.rx.wr ∧
      exec (.read nb n) s = .next { s with
        rx := q
        readable := if s.rx.count ≤ n.toNat then false else s.readable
        ports := s.ports.answer .rd { status := .ok, value := BitVec.ofNat 32 (min n.toNat s.rx.count),
                                      data := (contents s.cap s.rx).take n.toNat } }) ∧
  ∀ (nb : Bool) (n : Word) (s : State), s.isOpen = false ∨ n = 0 ∨ s.rx.count = 0 →
    exec (.read nb n) s = .next
      (if s.isOpen = false then { s with ports := s.ports.answer .rd (plain .notOpen 0) }
       else if n = 0 ∨ nb = true then { s with ports := s.ports.answer .rd (plain .ok 0) }
       else { s with rdBlocked := some n })

/-- R265: a step of HOST_RD while a READ is blocked and the RX queue holds bytes completes the READ with up to its count of the oldest bytes. -/
def Obligations.BlockedReadWakes : Prop :=
  ∀ (n : Word) (s : State) (ts : List Agent), paramsLegal s.par = true → s.env.turns = .hostRd :: ts →
    s.rdBlocked = some n → 0 < s.rx.count →
    ∃ q, contents s.cap q = (contents s.cap s.rx).drop n.toNat ∧
      step s = .next { s with
        env := { s.env with turns := ts }
        rdBlocked := none
        rx := q
        readable := if s.rx.count ≤ n.toNat then false else s.readable
        ports := s.ports.answer .rd { status := .ok, value := BitVec.ofNat 32 (min n.toNat s.rx.count),
                                      data := (contents s.cap s.rx).take n.toNat } }

/-- R284, R285, R286: WRITE appends min(LEN, free space) bytes to the TX queue, clears writeable if that fills it, and answers the count; in mode Tx with bytes queued and no transfer running it starts the transfer first, and if the start fails goes to Idle with SEL_HIZ, keeps the bytes, and answers the error with the count; on a closed device it is NotOpen. -/
def Obligations.WriteQueuesAndStarts : Prop :=
  encode (.write [0xDE, 0xAD, 0xBE, 0xEF]) = wordBytes 0x30000000 ++ wordBytes 4 ++ [0xDE, 0xAD, 0xBE, 0xEF] ∧
  (∀ (data : List Byte) (s : State), s.isOpen = false →
    exec (.write data) s = .next { s with ports := s.ports.answer .wr (plain .notOpen 0) }) ∧
  ∀ (data : List Byte) (s : State), s.isOpen = true → QueueOk s.cap s.tx →
    let k := min data.length (s.cap - s.tx.count)
    let w := if s.tx.count + k = s.cap then false else s.writeable
    let u := startTransfer .memToDev s
    ∃ q, QueueOk s.cap q ∧ contents s.cap q = contents s.cap s.tx ++ data.take k ∧
      exec (.write data) s = .next
        (if ¬ (s.mode = .tx ∧ s.xferDir = .none ∧ 0 < s.tx.count + k) then
          { s with tx := q, writeable := w, ports := s.ports.answer .wr (plain .ok (BitVec.ofNat 32 k)) }
         else if startResult s = .ok then
          { u with tx := q, writeable := w, ports := s.ports.answer .wr (plain .ok (BitVec.ofNat 32 k)) }
         else
          { u with
            tx := q, writeable := w, mode := .idle, sel := s.par.selHiz,
            ports := s.ports.answer .wr (plain (startResult s) (BitVec.ofNat 32 k)) })

/-- R288: FLUSH empties the RX queue by moving its read cursor to its write cursor; on a closed device it is NotOpen. -/
def Obligations.FlushDropsTheRxQueue : Prop :=
  encode .flush = wordBytes 0x30000001 ∧ ∀ s : State,
    exec .flush s = .next
      (if s.isOpen = false then { s with ports := s.ports.answer .wr (plain .notOpen 0) }
       else { s with
        rx := { s.rx with rd := s.rx.wr, count := 0 }, readable := false,
        ports := s.ports.answer .wr (plain .ok 0) })

/-! ## OPEN, CLOSE and reset (45_host_interface.md, 70_reset_and_hazards.md) -/

/-- R300: OPEN in its three outcomes; on success both queues are empty with cap bytes of store and the bounce region exists. -/
def Obligations.OpenInitialisesTheEngine : Prop :=
  encode .openDev = wordBytes 0x01000000 ∧ ∀ s : State, ∃ qr qt m, exec .openDev s = .next
    (if s.isOpen then { s with ports := s.ports.answer .ctl (plain .deviceBusy 0) }
     else if nextBit s.env = false then
      { s with env := dropBit s.env, ports := s.ports.answer .ctl (plain .resourceExhausted 0) }
     else { s with
      cap := s.cfgMult.toNat * s.par.unit, rx := qr, tx := qt, bounce := m, env := dropBytes (s.par.nSeg * s.par.unit) (dropBit s.env), mode := .idle, sel := s.par.selHiz,
      xferDir := .none, pending := 0, hwIdx := 0, completed := 0, dropped := 0, readable := false, writeable := false,
      deadlineMiss := false, periphEn := false, periphDir := .none, xferRemaining := 0, isOpen := true,
      ports := s.ports.answer .ctl (plain .ok 0) }) ∧
    (∀ q, q = qr ∨ q = qt → q.rd = 0 ∧ q.wr = 0 ∧ q.count = 0 ∧ q.store.length = s.cfgMult.toNat * s.par.unit) ∧
    m.map Prod.fst = bounceAddrs s.par

/-- R302: CLOSE stops, ends a blocked READ with Interrupted, frees everything, and closes whether or not the stop timed out. -/
def Obligations.CloseReleasesTheEngine : Prop :=
  encode .closeDev = wordBytes 0x02000000 ∧ ∀ s : State,
    (s.isOpen = false → exec .closeDev s = .next { s with ports := s.ports.answer .ctl (plain .notOpen 0) }) ∧
    (s.isOpen = true → exec .closeDev s = .next
      (let p := match s.rdBlocked with | none => s.ports | some _ => s.ports.answer .rd (plain .interrupted 0)
       { stopTransfer s with
         rdBlocked := none, mode := .idle, sel := s.par.selHiz, cap := 0, rx := Queue.closed, tx := Queue.closed, bounce := [],
         readable := false, writeable := false, isOpen := false,
         ports := p.answer .ctl (plain (if stopQuiesced s then .ok else .deviceBusy) 0) }))

/-- R383, R382: a successful OPEN from a sound closed state leaves OpenIdle (whose clause on outstanding commands is read as log 19 says); CLOSE then OPEN re-initialises the engine, the configuration and observation fields surviving. -/
def Obligations.OpenReinitialises : Prop :=
  (∀ s : State, Inv s → s.isOpen = false → nextBit s.env = true → ∃ t, exec .openDev s = .next t ∧ OpenIdle t) ∧
  ∀ s t : State, Inv s → s.isOpen = true → exec .closeDev s = .next t → nextBit t.env = true →
    ∃ u, exec .openDev t = .next u ∧ OpenIdle u ∧ u.cfgMult = s.cfgMult ∧ u.cfgOffa = s.cfgOffa ∧ u.cfgOffb = s.cfgOffb ∧
      u.notifyCount = s.notifyCount ∧ u.txWire = s.txWire

/-- R65, R380: the power-on state, for every parameter set. -/
def Obligations.ResetValues : Prop :=
  ∀ p : Params, let s := State.resetWith p
    s.isOpen = false ∧ s.mode = .idle ∧ s.cfgMult = p.multReset ∧ s.cfgOffa = p.offaReset ∧ s.cfgOffb = p.offbReset ∧
    s.cap = 0 ∧ s.rx = { store := [], rd := 0, wr := 0, count := 0 } ∧ s.tx = { store := [], rd := 0, wr := 0, count := 0 } ∧
    s.completed = 0 ∧ s.dropped = 0 ∧ s.readable = false ∧ s.writeable = false ∧ s.deadlineMiss = false ∧
    s.xferDir = .none ∧ s.hwIdx = 0 ∧ s.pending = 0 ∧ s.bounce = [] ∧ s.rdBlocked = none ∧ s.notifyCount = 0 ∧
    s.txWire = [] ∧ s.periphEn = false ∧ s.periphDir = .none ∧ s.xferRemaining = 0 ∧ s.sel = p.selHiz ∧
    s.ports = { ctlIn := [], rdIn := [], wrIn := [], evtIn := [], ctlOut := [], rdOut := [], wrOut := [] }

/-! ## Queues and memory (43_stream_queues.md, 20_memory.md) -/

/-- R231, R232: QueuePush appends what fits, in order, to the contents; QueuePop returns and removes the front of the contents; QueueReset and QueueDropAll empty them; all keep a queue sound. -/
def Obligations.QueuePushAppendsPopTakesTheFront : Prop :=
  ∀ (cap : Nat) (q : Queue), QueueOk cap q →
    (∀ b : List Byte, QueueOk cap (queuePush cap q b) ∧
      (queuePush cap q b).count = q.count + min b.length (cap - q.count) ∧
      contents cap (queuePush cap q b) = contents cap q ++ b.take (min b.length (cap - q.count))) ∧
    (∀ m : Nat, QueueOk cap (queuePop cap q m) ∧ (popBytes cap q m).length = min m q.count ∧
      popBytes cap q m = (contents cap q).take m ∧ contents cap (queuePop cap q m) = (contents cap q).drop m) ∧
    QueueOk cap (queueReset q) ∧ contents cap (queueReset q) = [] ∧
    QueueOk cap (queueDropAll q) ∧ contents cap (queueDropAll q) = []

/-- R239: over any run of pushes and pops nothing is lost, duplicated or made up: what was queued and accepted is what was returned and is still queued, in order. -/
def Obligations.QueueConservesBytes : Prop :=
  ∀ (cap : Nat) (q : Queue) (ops : List QueueOp), QueueOk cap q →
    let r := runQueue cap q ops
    contents cap q ++ r.2.1 = r.2.2 ++ contents cap r.1 ∧ r.1.count + r.2.2.length = q.count + r.2.1.length ∧
    QueueOk cap r.1

/-- R82: MemWrite and MemRead require the bounce region; MemWrite stores exactly its bytes and changes nothing else, MemRead returns the bytes held, a MemRead of what was written gives it back, and while the device is open no segment access fails. -/
def Obligations.MemoryAccessIsExact : Prop :=
  (∀ (s t : State) (a : Nat) (v : List Byte), memWrite s a v = some t →
    s.par.bounceBase ≤ a ∧ a + v.length ≤ s.par.bounceBase + s.par.nSeg * s.par.unit ∧
    Stored s.bounce t.bounce a v ∧ t = { s with bounce := t.bounce } ∧ memRead t a v.length = some v) ∧
  (∀ (s : State) (a n : Nat) (bs : List Byte), memRead s a n = some bs →
    s.par.bounceBase ≤ a ∧ a + n ≤ s.par.bounceBase + s.par.nSeg * s.par.unit ∧ bs.length = n ∧ Holds s.bounce a bs) ∧
  ∀ (s : State) (k : Nat) (v : List Byte), Inv s → s.isOpen = true → k < s.par.nSeg → v.length = s.par.unit →
    (∃ bs, memRead s (segAddr s.par k) s.par.unit = some bs) ∧ ∃ t, memWrite s (segAddr s.par k) v = some t

/-! ## Whole-machine rules -/

/-- R63 and the progress invariants at reset, for every legal parameter set. -/
def Obligations.ResetIsSound : Prop :=
  ∀ p : Params, paramsLegal p = true → Inv (State.resetWith p) ∧ SegmentsTracked (State.resetWith p) ∧
    DeadlineTracked (State.resetWith p) ∧ PeripheralTracked (State.resetWith p) ∧ RxStallHasCompletions (State.resetWith p)

/-- R63: every step of every agent keeps the invariants. -/
def Obligations.StepKeepsTheInvariants : Prop :=
  ∀ s t : State, Inv s → step s = .next t → Inv t

/-- R357: from a sound state every step answers a next state; no fault, no refusal, no stuck instruction. -/
def Obligations.TheBlockNeverFaults : Prop :=
  ∀ s : State, Inv s → (∃ t, step s = .next t) ∧ ∀ i : Instr, ∃ t, exec i s = .next t

/-- R201, R209: the segment a completion selects is the one the DMA engine transferred, kept by every step (across the wrap of the counter too); R42, R390: while DEADLINE_MISS is clear at most one completion is pending. -/
def Obligations.StepKeepsCompletionsTracked : Prop :=
  (∀ s t : State, Inv s → SegmentsTracked s → step s = .next t → SegmentsTracked t) ∧
  ∀ s t : State, DeadlineTracked s → step s = .next t → DeadlineTracked t

/-- R357: an RX stall has at least L completions pending, and the peripheral's registers agree with the transfer; kept by every step. -/
def Obligations.StepKeepsStallsLiftable : Prop :=
  ∀ s t : State, Inv s → PeripheralTracked s → RxStallHasCompletions s → step s = .next t →
    PeripheralTracked t ∧ RxStallHasCompletions t

/-- The bounce memory keeps its canonical form in every step, from every state. -/
def Obligations.StepKeepsMemoryCanonical : Prop :=
  ∀ s t : State, Memory.wf s.bounce → step s = .next t → Memory.wf t.bounce

/-- R92: the bytes the RD port has sent followed by the bytes queued grow only at their end, and only by the segment a completion moved; FLUSH, OPEN and CLOSE send nothing and leave the queue alone or empty; the DMA agent and READ_WAKE neither add nor lose a byte. -/
def Obligations.RxStreamIsConserved : Prop :=
  (∀ (i : Instr) (s t : State), Inv s → exec i s = .next t → i ≠ .flush → i ≠ .openDev → i ≠ .closeDev →
    ∃ bs, (bs = [] ∨ i = .segDone ∧ bs.length = s.par.unit ∧ s.xferDir = .devToMem ∧ 0 < s.pending ∧
          Holds s.bounce (segAddr s.par (s.completed.toNat % s.par.nSeg)) bs) ∧
      readBytesSent t ++ contents t.cap t.rx = readBytesSent s ++ contents s.cap s.rx ++ bs) ∧
  (∀ (i : Instr) (s t : State), exec i s = .next t → i = .flush ∨ i = .openDev ∨ i = .closeDev →
    readBytesSent t = readBytesSent s ∧ (t.rx = s.rx ∧ t.cap = s.cap ∨ contents t.cap t.rx = [])) ∧
  (∀ (n : Word) (s : State), let t := readWake n s
    readBytesSent t ++ contents t.cap t.rx = readBytesSent s ++ contents s.cap s.rx) ∧
  ∀ s t : State, dmaSegment s = .next t → t.rx = s.rx ∧ t.cap = s.cap ∧ t.ports = s.ports

/-- R301: no command or event changes the capacity, N_SEG × U or which bounce bytes exist, but CLOSE and an OPEN of a closed device. -/
def Obligations.GeometryIsFixedWhileOpen : Prop :=
  ∀ (i : Instr) (s t : State), exec i s = .next t → i ≠ .closeDev → (i = .openDev → s.isOpen = true) →
    t.cap = s.cap ∧ t.par.nSeg * t.par.unit = s.par.nSeg * s.par.unit ∧ t.isOpen = s.isOpen ∧
    t.bounce.map Prod.fst = s.bounce.map Prod.fst

/-- R34: only SET_MODE, a WRITE whose lazy start fails, and CLOSE change the mode of a sound state. -/
def Obligations.OnlySetModeWriteCloseChangeTheMode : Prop :=
  (∀ (i : Instr) (s t : State), Inv s → exec i s = .next t → (∀ m, i ≠ .setMode m) → (∀ d, i ≠ .write d) → i ≠ .closeDev →
    t.mode = s.mode) ∧
  (∀ (d : List Byte) (s t : State), exec (.write d) s = .next t → t.mode ≠ s.mode →
    t.mode = .idle ∧ s.mode = .tx ∧ s.xferDir = .none ∧ startResult s ≠ .ok) ∧
  (∀ s t : State, dmaSegment s = .next t → t.mode = s.mode) ∧ ∀ (n : Word) (s : State), (readWake n s).mode = s.mode

/-- R261: a step pulses NOTIFY exactly at a handled completion and at a SET_MODE that enters Tx. -/
def Obligations.NotifyPulsesExactly : Prop :=
  (∀ (i : Instr) (s t : State), exec i s = .next t →
    t.notifyCount = s.notifyCount +
      (if (i = .segDone ∧ 0 < s.pending) ∨
          (i = .setMode .tx ∧ s.isOpen = true ∧ s.mode ≠ .tx ∧ stopQuiesced s = true) then 1 else 0)) ∧
  (∀ s t : State, dmaSegment s = .next t → t.notifyCount = s.notifyCount) ∧
  ∀ (n : Word) (s : State), (readWake n s).notifyCount = s.notifyCount

/-- R181: no command, no event and no READ_WAKE sends on the wire; a DMA segment step adds nothing or, in a MemToDev transfer, what segment hw_idx holds. -/
def Obligations.WireGrowsByWholeSegments : Prop :=
  (∀ (i : Instr) (s t : State), exec i s = .next t → t.txWire = s.txWire) ∧
  (∀ (n : Word) (s : State), (readWake n s).txWire = s.txWire) ∧
  ∀ s t : State, dmaSegment s = .next t →
    t.txWire = s.txWire ∨
      s.xferDir = .memToDev ∧ ∃ bs, bs.length = s.par.unit ∧ Holds s.bounce (segAddr s.par s.hwIdx) bs ∧ t.txWire = s.txWire ++ bs

/-- R264: a blocked READ stays blocked under every command and event but CANCEL and CLOSE (READ is on the port it holds). -/
def Obligations.OnlyCancelCloseLiftABlockedRead : Prop :=
  ∀ (i : Instr) (s t : State) (n : Word), exec i s = .next t → s.rdBlocked = some n → i ≠ .cancel → i ≠ .closeDev →
    (∀ nb k, i ≠ .read nb k) → t.rdBlocked = some n ∧ t.ports.rdOut = s.ports.rdOut

/-! ## Responses (30_encoding.md section 5, 60_exceptions.md section 1) -/

/-- R340, R121: a response is sent as RW, with the status code in its first byte and zeros in the other three, then VW, lowest byte first, then the data; the codes are 0 to 7. -/
def Obligations.ResponseWordsAndStatusCodes : Prop :=
  ∀ (st : Status) (v : Word) (d : List Byte),
    let code : Byte := match st with
      | .ok => 0
      | .deviceBusy => 1
      | .transferSetupFailed => 2
      | .interrupted => 3
      | .invalidParameter => 4
      | .resourceExhausted => 5
      | .illegalCommand => 6
      | .notOpen => 7
    Response.bytes { status := st, value := v, data := d } =
      [code, 0, 0, 0] ++ [v.extractLsb' 0 8, v.extractLsb' 8 8, v.extractLsb' 16 8, v.extractLsb' 24 8] ++ d

/-- R121: a host command sends exactly one response on its own port, with data only for READ and then as many bytes as its value says; a READ that blocks sends none yet. An event sends none, but for the READ that CANCEL ends. -/
def Obligations.EveryCommandIsAnsweredOnce : Prop :=
  (∀ (i : Instr) (s t : State), exec i s = .next t → i.port ≠ .evt →
    (∃ r, responses t i.port = responses s i.port ++ [r] ∧ (r.data ≠ [] → i.port = .rd) ∧
      (i.port = .rd → r.value = BitVec.ofNat 32 r.data.length)) ∨
    ∃ n, i = .read false n ∧ t = { s with rdBlocked := some n }) ∧
  ∀ (i : Instr) (s t : State), exec i s = .next t → i.port = .evt →
    t.ports = s.ports ∨ i = .cancel ∧ s.rdBlocked ≠ none ∧ t.ports = s.ports.answer .rd (plain .interrupted 0)

/-! ## Parameters (00_scope.md section 3) -/

/-- R8, R151: any function of a non-idle mode and two offsets in range can be SELECTOR, SET_MODE drives its value at the mode and the offsets held, and in a legal parameter set no value of it is SEL_HIZ (how the parameter is given: log 6). -/
def Obligations.SelectorIsTheGivenFunction : Prop :=
  (∀ (f : Mode → Int → Int → SelectorValue) (s : State) (m : Mode), s.par.selector = selectorTable f → m ≠ .idle →
    -1 ≤ s.cfgOffa → s.cfgOffa ≤ 4 → -1 ≤ s.cfgOffb → s.cfgOffb ≤ 4 → s.isOpen = true → s.mode ≠ m →
    stopQuiesced s = true → m = .tx ∨ startResult (stopTransfer s) = .ok →
    ∃ t, exec (.setMode m) s = .next t ∧ t.sel = f m s.cfgOffa s.cfgOffb) ∧
  ∀ (p : Params) (m : Mode) (a b : Int), paramsLegal p = true → m ≠ .idle →
    -1 ≤ a → a ≤ 4 → -1 ≤ b → b ≤ 4 → selectorValue p m a b ≠ p.selHiz

/-- No step changes a parameter (the parameter set is a field of the state: log 1). -/
def Obligations.ParametersNeverChange : Prop := ∀ s t : State, step s = .next t → t.par = s.par
end

