-- ==== Sys2Proof/Laws/Decode.lean ====
section
/-! SUPPORT. The laws of the transport's words: a word read back from its four bytes is the word (30_encoding.md R111). -/

namespace Sys2Proof

theorem wordBytes_length (w : Word) : (wordBytes w).length = 4 := rfl

/-- The four bytes of a word, most significant first, are the word. -/
theorem bytes_of_word (w : Word) :
    (w.extractLsb' 24 8 ++ w.extractLsb' 16 8 ++ w.extractLsb' 8 8 ++ w.extractLsb' 0 8 : BitVec 32) = w := by
  apply BitVec.eq_of_getLsbD_eq
  intro i hi
  simp only [BitVec.getLsbD_append, BitVec.getLsbD_extractLsb']
  by_cases h0 : i < 8
  · simp [h0]
  · by_cases h1 : i - 8 < 8
    · simp only [h0, h1]; simp; congr 1; omega
    · by_cases h2 : i - 8 - 8 < 8
      · simp only [h0, h1, h2]; simp; congr 1; omega
      · have h3 : i - 8 - 8 - 8 < 8 := by omega
        have h4 : 24 + (i - 8 - 8 - 8) = i := by omega
        simp only [h0, h1, h2]; simp [h3, h4]

/-- A word read back from a stream that starts with its bytes. -/
theorem takeWord_wordBytes (w : Word) (rest : List Byte) : takeWord (wordBytes w ++ rest) = some (w, rest) := by
  simp only [wordBytes, List.cons_append, List.nil_append, takeWord]
  rw [bytes_of_word]

/-- A stream that starts with a word is that word's bytes and the rest. -/
theorem takeWord_some {bytes rest : List Byte} {w : Word} (h : takeWord bytes = some (w, rest)) :
    bytes = wordBytes w ++ rest := by
  match bytes, h with
  | b0 :: b1 :: b2 :: b3 :: tail, h =>
    simp only [takeWord, Option.some.injEq, Prod.mk.injEq] at h
    obtain ⟨rfl, rfl⟩ := h
    simp only [wordBytes, List.cons_append, List.nil_append]
    congr 1
    · apply BitVec.eq_of_getLsbD_eq
      intro i hi
      simp only [BitVec.getLsbD_extractLsb', BitVec.getLsbD_append, hi]
      simp [hi]
    congr 1
    · apply BitVec.eq_of_getLsbD_eq
      intro i hi
      simp only [BitVec.getLsbD_extractLsb', BitVec.getLsbD_append, hi]
      simp [hi]
    congr 1
    · apply BitVec.eq_of_getLsbD_eq
      intro i hi
      simp only [BitVec.getLsbD_extractLsb', BitVec.getLsbD_append, hi]
      simp [hi, show ¬ 16 + i < 8 by omega, show ¬ 16 + i - 8 < 8 by omega, show 16 + i - 8 - 8 = i by omega]
    congr 1
    · apply BitVec.eq_of_getLsbD_eq
      intro i hi
      simp only [BitVec.getLsbD_extractLsb', BitVec.getLsbD_append, hi]
      simp [hi, show ¬ 24 + i < 8 by omega, show ¬ 24 + i - 8 < 8 by omega, show ¬ 24 + i - 8 - 8 < 8 by omega,
        show 24 + i - 8 - 8 - 8 = i by omega]

/-! ## The command word: OP over 24 argument bits (R112) -/

/-- The opcode byte of a number built as opcode over argument. -/
theorem opcodePart (k arg : Nat) (h : arg < 2 ^ 24) : (k * 2 ^ 24 + arg) % 2 ^ 32 / 2 ^ 24 % 2 ^ 8 = k % 2 ^ 8 := by
  norm_num at *
  omega

/-- The argument bits of a number built as opcode over argument. -/
theorem argumentPart (k arg : Nat) (h : arg < 2 ^ 24) : (k * 2 ^ 24 + arg) % 2 ^ 32 % 2 ^ 24 = arg % 2 ^ 32 := by
  norm_num at *
  omega

/-- OP of a command word is its opcode's number. -/
theorem opField_commandWord (o : Opcode) (arg : Nat) (h : arg < 2 ^ 24) :
    opField (commandWord o arg) = BitVec.ofNat 8 o.number := by
  apply BitVec.eq_of_toNat_eq
  rw [opField, commandWord, BitVec.extractLsb'_toNat, BitVec.toNat_ofNat, BitVec.toNat_ofNat, Nat.shiftRight_eq_div_pow]
  exact opcodePart _ _ h

/-- Every opcode is the one its number is assigned to. -/
theorem opcodeOf_number (o : Opcode) : opcodeOf (BitVec.ofNat 8 o.number) = some o := by
  cases o <;> decide

/-- The opcode of a command word. -/
theorem opcodeOf_commandWord (o : Opcode) (arg : Nat) (h : arg < 2 ^ 24) :
    opcodeOf (opField (commandWord o arg)) = some o := by
  rw [opField_commandWord o arg h, opcodeOf_number]

/-- CW[23:0] of a command word is its argument. -/
theorem commandWord_argument (o : Opcode) (arg : Nat) (h : arg < 2 ^ 24) :
    commandWord o arg &&& 0x00FFFFFF#32 = BitVec.ofNat 32 arg := by
  apply BitVec.eq_of_toNat_eq
  have e : (16777215#32).toNat = 2 ^ 24 - 1 := by decide
  rw [BitVec.toNat_and, e, Nat.and_two_pow_sub_one_eq_mod, commandWord, BitVec.toNat_ofNat, BitVec.toNat_ofNat]
  exact argumentPart _ _ h

/-- A bit of CW[23:0] of a command word is that bit of its argument. -/
theorem commandWord_getLsbD (o : Opcode) (arg i : Nat) (h : arg < 2 ^ 24) (hi : i < 24) :
    (commandWord o arg).getLsbD i = (BitVec.ofNat 32 arg).getLsbD i := by
  have all : ∀ j : Nat, j < 24 → (16777215#32).getLsbD j = true := by decide
  rw [← commandWord_argument o arg h, BitVec.getLsbD_and, all i hi, Bool.and_true]

/-- The reserved bits of a command word are those of its argument. -/
theorem commandWord_reserved (o : Opcode) (arg : Nat) (h : arg < 2 ^ 24)
    (h0 : BitVec.ofNat 32 arg &&& o.format.reserved = 0) : commandWord o arg &&& o.format.reserved = 0 := by
  have hr : o.format.reserved &&& 0x00FFFFFF#32 = o.format.reserved := by cases o <;> decide
  rw [← hr, BitVec.and_comm o.format.reserved, ← BitVec.and_assoc, commandWord_argument o arg h, h0]

end Sys2Proof
end

