-- ==== Sys2Proof/Laws/State.lean ====
section
/-! SUPPORT. What each named update does to each field of the state, one lemma per field per update, so that no later proof unfolds a record update. -/

namespace Sys2Proof.Machine

section
variable (s : State)

/-! `respond` -/

@[simp] theorem respond_par (p : Port) (st : Status) (v : Word) (d : List Byte) : (respond p st v d s).par = s.par := rfl
@[simp] theorem respond_env (p : Port) (st : Status) (v : Word) (d : List Byte) : (respond p st v d s).env = s.env := rfl
@[simp] theorem respond_ports (p : Port) (st : Status) (v : Word) (d : List Byte) : (respond p st v d s).ports = s.ports.answer p { status := st, value := v, data := d } := rfl
@[simp] theorem respond_isOpen (p : Port) (st : Status) (v : Word) (d : List Byte) : (respond p st v d s).isOpen = s.isOpen := rfl
@[simp] theorem respond_mode (p : Port) (st : Status) (v : Word) (d : List Byte) : (respond p st v d s).mode = s.mode := rfl
@[simp] theorem respond_cfgMult (p : Port) (st : Status) (v : Word) (d : List Byte) : (respond p st v d s).cfgMult = s.cfgMult := rfl
@[simp] theorem respond_cfgOffa (p : Port) (st : Status) (v : Word) (d : List Byte) : (respond p st v d s).cfgOffa = s.cfgOffa := rfl
@[simp] theorem respond_cfgOffb (p : Port) (st : Status) (v : Word) (d : List Byte) : (respond p st v d s).cfgOffb = s.cfgOffb := rfl
@[simp] theorem respond_cap (p : Port) (st : Status) (v : Word) (d : List Byte) : (respond p st v d s).cap = s.cap := rfl
@[simp] theorem respond_rx (p : Port) (st : Status) (v : Word) (d : List Byte) : (respond p st v d s).rx = s.rx := rfl
@[simp] theorem respond_tx (p : Port) (st : Status) (v : Word) (d : List Byte) : (respond p st v d s).tx = s.tx := rfl
@[simp] theorem respond_completed (p : Port) (st : Status) (v : Word) (d : List Byte) : (respond p st v d s).completed = s.completed := rfl
@[simp] theorem respond_dropped (p : Port) (st : Status) (v : Word) (d : List Byte) : (respond p st v d s).dropped = s.dropped := rfl
@[simp] theorem respond_readable (p : Port) (st : Status) (v : Word) (d : List Byte) : (respond p st v d s).readable = s.readable := rfl
@[simp] theorem respond_writeable (p : Port) (st : Status) (v : Word) (d : List Byte) : (respond p st v d s).writeable = s.writeable := rfl
@[simp] theorem respond_deadlineMiss (p : Port) (st : Status) (v : Word) (d : List Byte) : (respond p st v d s).deadlineMiss = s.deadlineMiss := rfl
@[simp] theorem respond_xferDir (p : Port) (st : Status) (v : Word) (d : List Byte) : (respond p st v d s).xferDir = s.xferDir := rfl
@[simp] theorem respond_hwIdx (p : Port) (st : Status) (v : Word) (d : List Byte) : (respond p st v d s).hwIdx = s.hwIdx := rfl
@[simp] theorem respond_pending (p : Port) (st : Status) (v : Word) (d : List Byte) : (respond p st v d s).pending = s.pending := rfl
@[simp] theorem respond_bounce (p : Port) (st : Status) (v : Word) (d : List Byte) : (respond p st v d s).bounce = s.bounce := rfl
@[simp] theorem respond_rdBlocked (p : Port) (st : Status) (v : Word) (d : List Byte) : (respond p st v d s).rdBlocked = s.rdBlocked := rfl
@[simp] theorem respond_notifyCount (p : Port) (st : Status) (v : Word) (d : List Byte) : (respond p st v d s).notifyCount = s.notifyCount := rfl
@[simp] theorem respond_txWire (p : Port) (st : Status) (v : Word) (d : List Byte) : (respond p st v d s).txWire = s.txWire := rfl
@[simp] theorem respond_periphEn (p : Port) (st : Status) (v : Word) (d : List Byte) : (respond p st v d s).periphEn = s.periphEn := rfl
@[simp] theorem respond_periphDir (p : Port) (st : Status) (v : Word) (d : List Byte) : (respond p st v d s).periphDir = s.periphDir := rfl
@[simp] theorem respond_xferRemaining (p : Port) (st : Status) (v : Word) (d : List Byte) : (respond p st v d s).xferRemaining = s.xferRemaining := rfl
@[simp] theorem respond_sel (p : Port) (st : Status) (v : Word) (d : List Byte) : (respond p st v d s).sel = s.sel := rfl

/-! `raise` -/

@[simp] theorem raise_par (p : Port) (st : Status) : (raise p st s).par = s.par := rfl
@[simp] theorem raise_env (p : Port) (st : Status) : (raise p st s).env = s.env := rfl
@[simp] theorem raise_ports (p : Port) (st : Status) : (raise p st s).ports = s.ports.answer p { status := st, value := 0, data := [] } := rfl
@[simp] theorem raise_isOpen (p : Port) (st : Status) : (raise p st s).isOpen = s.isOpen := rfl
@[simp] theorem raise_mode (p : Port) (st : Status) : (raise p st s).mode = s.mode := rfl
@[simp] theorem raise_cfgMult (p : Port) (st : Status) : (raise p st s).cfgMult = s.cfgMult := rfl
@[simp] theorem raise_cfgOffa (p : Port) (st : Status) : (raise p st s).cfgOffa = s.cfgOffa := rfl
@[simp] theorem raise_cfgOffb (p : Port) (st : Status) : (raise p st s).cfgOffb = s.cfgOffb := rfl
@[simp] theorem raise_cap (p : Port) (st : Status) : (raise p st s).cap = s.cap := rfl
@[simp] theorem raise_rx (p : Port) (st : Status) : (raise p st s).rx = s.rx := rfl
@[simp] theorem raise_tx (p : Port) (st : Status) : (raise p st s).tx = s.tx := rfl
@[simp] theorem raise_completed (p : Port) (st : Status) : (raise p st s).completed = s.completed := rfl
@[simp] theorem raise_dropped (p : Port) (st : Status) : (raise p st s).dropped = s.dropped := rfl
@[simp] theorem raise_readable (p : Port) (st : Status) : (raise p st s).readable = s.readable := rfl
@[simp] theorem raise_writeable (p : Port) (st : Status) : (raise p st s).writeable = s.writeable := rfl
@[simp] theorem raise_deadlineMiss (p : Port) (st : Status) : (raise p st s).deadlineMiss = s.deadlineMiss := rfl
@[simp] theorem raise_xferDir (p : Port) (st : Status) : (raise p st s).xferDir = s.xferDir := rfl
@[simp] theorem raise_hwIdx (p : Port) (st : Status) : (raise p st s).hwIdx = s.hwIdx := rfl
@[simp] theorem raise_pending (p : Port) (st : Status) : (raise p st s).pending = s.pending := rfl
@[simp] theorem raise_bounce (p : Port) (st : Status) : (raise p st s).bounce = s.bounce := rfl
@[simp] theorem raise_rdBlocked (p : Port) (st : Status) : (raise p st s).rdBlocked = s.rdBlocked := rfl
@[simp] theorem raise_notifyCount (p : Port) (st : Status) : (raise p st s).notifyCount = s.notifyCount := rfl
@[simp] theorem raise_txWire (p : Port) (st : Status) : (raise p st s).txWire = s.txWire := rfl
@[simp] theorem raise_periphEn (p : Port) (st : Status) : (raise p st s).periphEn = s.periphEn := rfl
@[simp] theorem raise_periphDir (p : Port) (st : Status) : (raise p st s).periphDir = s.periphDir := rfl
@[simp] theorem raise_xferRemaining (p : Port) (st : Status) : (raise p st s).xferRemaining = s.xferRemaining := rfl
@[simp] theorem raise_sel (p : Port) (st : Status) : (raise p st s).sel = s.sel := rfl

/-! `done` -/

@[simp] theorem done_par (p : Port) (v : Word) : (done p v s).par = s.par := rfl
@[simp] theorem done_env (p : Port) (v : Word) : (done p v s).env = s.env := rfl
@[simp] theorem done_ports (p : Port) (v : Word) : (done p v s).ports = s.ports.answer p { status := .ok, value := v, data := [] } := rfl
@[simp] theorem done_isOpen (p : Port) (v : Word) : (done p v s).isOpen = s.isOpen := rfl
@[simp] theorem done_mode (p : Port) (v : Word) : (done p v s).mode = s.mode := rfl
@[simp] theorem done_cfgMult (p : Port) (v : Word) : (done p v s).cfgMult = s.cfgMult := rfl
@[simp] theorem done_cfgOffa (p : Port) (v : Word) : (done p v s).cfgOffa = s.cfgOffa := rfl
@[simp] theorem done_cfgOffb (p : Port) (v : Word) : (done p v s).cfgOffb = s.cfgOffb := rfl
@[simp] theorem done_cap (p : Port) (v : Word) : (done p v s).cap = s.cap := rfl
@[simp] theorem done_rx (p : Port) (v : Word) : (done p v s).rx = s.rx := rfl
@[simp] theorem done_tx (p : Port) (v : Word) : (done p v s).tx = s.tx := rfl
@[simp] theorem done_completed (p : Port) (v : Word) : (done p v s).completed = s.completed := rfl
@[simp] theorem done_dropped (p : Port) (v : Word) : (done p v s).dropped = s.dropped := rfl
@[simp] theorem done_readable (p : Port) (v : Word) : (done p v s).readable = s.readable := rfl
@[simp] theorem done_writeable (p : Port) (v : Word) : (done p v s).writeable = s.writeable := rfl
@[simp] theorem done_deadlineMiss (p : Port) (v : Word) : (done p v s).deadlineMiss = s.deadlineMiss := rfl
@[simp] theorem done_xferDir (p : Port) (v : Word) : (done p v s).xferDir = s.xferDir := rfl
@[simp] theorem done_hwIdx (p : Port) (v : Word) : (done p v s).hwIdx = s.hwIdx := rfl
@[simp] theorem done_pending (p : Port) (v : Word) : (done p v s).pending = s.pending := rfl
@[simp] theorem done_bounce (p : Port) (v : Word) : (done p v s).bounce = s.bounce := rfl
@[simp] theorem done_rdBlocked (p : Port) (v : Word) : (done p v s).rdBlocked = s.rdBlocked := rfl
@[simp] theorem done_notifyCount (p : Port) (v : Word) : (done p v s).notifyCount = s.notifyCount := rfl
@[simp] theorem done_txWire (p : Port) (v : Word) : (done p v s).txWire = s.txWire := rfl
@[simp] theorem done_periphEn (p : Port) (v : Word) : (done p v s).periphEn = s.periphEn := rfl
@[simp] theorem done_periphDir (p : Port) (v : Word) : (done p v s).periphDir = s.periphDir := rfl
@[simp] theorem done_xferRemaining (p : Port) (v : Word) : (done p v s).xferRemaining = s.xferRemaining := rfl
@[simp] theorem done_sel (p : Port) (v : Word) : (done p v s).sel = s.sel := rfl

/-! `notify` -/

@[simp] theorem notify_par : (notify s).par = s.par := rfl
@[simp] theorem notify_env : (notify s).env = s.env := rfl
@[simp] theorem notify_ports : (notify s).ports = s.ports := rfl
@[simp] theorem notify_isOpen : (notify s).isOpen = s.isOpen := rfl
@[simp] theorem notify_mode : (notify s).mode = s.mode := rfl
@[simp] theorem notify_cfgMult : (notify s).cfgMult = s.cfgMult := rfl
@[simp] theorem notify_cfgOffa : (notify s).cfgOffa = s.cfgOffa := rfl
@[simp] theorem notify_cfgOffb : (notify s).cfgOffb = s.cfgOffb := rfl
@[simp] theorem notify_cap : (notify s).cap = s.cap := rfl
@[simp] theorem notify_rx : (notify s).rx = s.rx := rfl
@[simp] theorem notify_tx : (notify s).tx = s.tx := rfl
@[simp] theorem notify_completed : (notify s).completed = s.completed := rfl
@[simp] theorem notify_dropped : (notify s).dropped = s.dropped := rfl
@[simp] theorem notify_readable : (notify s).readable = s.readable := rfl
@[simp] theorem notify_writeable : (notify s).writeable = s.writeable := rfl
@[simp] theorem notify_deadlineMiss : (notify s).deadlineMiss = s.deadlineMiss := rfl
@[simp] theorem notify_xferDir : (notify s).xferDir = s.xferDir := rfl
@[simp] theorem notify_hwIdx : (notify s).hwIdx = s.hwIdx := rfl
@[simp] theorem notify_pending : (notify s).pending = s.pending := rfl
@[simp] theorem notify_bounce : (notify s).bounce = s.bounce := rfl
@[simp] theorem notify_rdBlocked : (notify s).rdBlocked = s.rdBlocked := rfl
@[simp] theorem notify_notifyCount : (notify s).notifyCount = s.notifyCount + 1 := rfl
@[simp] theorem notify_txWire : (notify s).txWire = s.txWire := rfl
@[simp] theorem notify_periphEn : (notify s).periphEn = s.periphEn := rfl
@[simp] theorem notify_periphDir : (notify s).periphDir = s.periphDir := rfl
@[simp] theorem notify_xferRemaining : (notify s).xferRemaining = s.xferRemaining := rfl
@[simp] theorem notify_sel : (notify s).sel = s.sel := rfl

/-! `setInput` -/

@[simp] theorem setInput_par (p : Port) (bs : List Byte) : (setInput p bs s).par = s.par := rfl
@[simp] theorem setInput_env (p : Port) (bs : List Byte) : (setInput p bs s).env = s.env := rfl
@[simp] theorem setInput_ports (p : Port) (bs : List Byte) : (setInput p bs s).ports = s.ports.setInput p bs := rfl
@[simp] theorem setInput_isOpen (p : Port) (bs : List Byte) : (setInput p bs s).isOpen = s.isOpen := rfl
@[simp] theorem setInput_mode (p : Port) (bs : List Byte) : (setInput p bs s).mode = s.mode := rfl
@[simp] theorem setInput_cfgMult (p : Port) (bs : List Byte) : (setInput p bs s).cfgMult = s.cfgMult := rfl
@[simp] theorem setInput_cfgOffa (p : Port) (bs : List Byte) : (setInput p bs s).cfgOffa = s.cfgOffa := rfl
@[simp] theorem setInput_cfgOffb (p : Port) (bs : List Byte) : (setInput p bs s).cfgOffb = s.cfgOffb := rfl
@[simp] theorem setInput_cap (p : Port) (bs : List Byte) : (setInput p bs s).cap = s.cap := rfl
@[simp] theorem setInput_rx (p : Port) (bs : List Byte) : (setInput p bs s).rx = s.rx := rfl
@[simp] theorem setInput_tx (p : Port) (bs : List Byte) : (setInput p bs s).tx = s.tx := rfl
@[simp] theorem setInput_completed (p : Port) (bs : List Byte) : (setInput p bs s).completed = s.completed := rfl
@[simp] theorem setInput_dropped (p : Port) (bs : List Byte) : (setInput p bs s).dropped = s.dropped := rfl
@[simp] theorem setInput_readable (p : Port) (bs : List Byte) : (setInput p bs s).readable = s.readable := rfl
@[simp] theorem setInput_writeable (p : Port) (bs : List Byte) : (setInput p bs s).writeable = s.writeable := rfl
@[simp] theorem setInput_deadlineMiss (p : Port) (bs : List Byte) : (setInput p bs s).deadlineMiss = s.deadlineMiss := rfl
@[simp] theorem setInput_xferDir (p : Port) (bs : List Byte) : (setInput p bs s).xferDir = s.xferDir := rfl
@[simp] theorem setInput_hwIdx (p : Port) (bs : List Byte) : (setInput p bs s).hwIdx = s.hwIdx := rfl
@[simp] theorem setInput_pending (p : Port) (bs : List Byte) : (setInput p bs s).pending = s.pending := rfl
@[simp] theorem setInput_bounce (p : Port) (bs : List Byte) : (setInput p bs s).bounce = s.bounce := rfl
@[simp] theorem setInput_rdBlocked (p : Port) (bs : List Byte) : (setInput p bs s).rdBlocked = s.rdBlocked := rfl
@[simp] theorem setInput_notifyCount (p : Port) (bs : List Byte) : (setInput p bs s).notifyCount = s.notifyCount := rfl
@[simp] theorem setInput_txWire (p : Port) (bs : List Byte) : (setInput p bs s).txWire = s.txWire := rfl
@[simp] theorem setInput_periphEn (p : Port) (bs : List Byte) : (setInput p bs s).periphEn = s.periphEn := rfl
@[simp] theorem setInput_periphDir (p : Port) (bs : List Byte) : (setInput p bs s).periphDir = s.periphDir := rfl
@[simp] theorem setInput_xferRemaining (p : Port) (bs : List Byte) : (setInput p bs s).xferRemaining = s.xferRemaining := rfl
@[simp] theorem setInput_sel (p : Port) (bs : List Byte) : (setInput p bs s).sel = s.sel := rfl

/-! `periphDefaults` -/

@[simp] theorem periphDefaults_par : (periphDefaults s).par = s.par := rfl
@[simp] theorem periphDefaults_env : (periphDefaults s).env = s.env := rfl
@[simp] theorem periphDefaults_ports : (periphDefaults s).ports = s.ports := rfl
@[simp] theorem periphDefaults_isOpen : (periphDefaults s).isOpen = s.isOpen := rfl
@[simp] theorem periphDefaults_mode : (periphDefaults s).mode = s.mode := rfl
@[simp] theorem periphDefaults_cfgMult : (periphDefaults s).cfgMult = s.cfgMult := rfl
@[simp] theorem periphDefaults_cfgOffa : (periphDefaults s).cfgOffa = s.cfgOffa := rfl
@[simp] theorem periphDefaults_cfgOffb : (periphDefaults s).cfgOffb = s.cfgOffb := rfl
@[simp] theorem periphDefaults_cap : (periphDefaults s).cap = s.cap := rfl
@[simp] theorem periphDefaults_rx : (periphDefaults s).rx = s.rx := rfl
@[simp] theorem periphDefaults_tx : (periphDefaults s).tx = s.tx := rfl
@[simp] theorem periphDefaults_completed : (periphDefaults s).completed = s.completed := rfl
@[simp] theorem periphDefaults_dropped : (periphDefaults s).dropped = s.dropped := rfl
@[simp] theorem periphDefaults_readable : (periphDefaults s).readable = s.readable := rfl
@[simp] theorem periphDefaults_writeable : (periphDefaults s).writeable = s.writeable := rfl
@[simp] theorem periphDefaults_deadlineMiss : (periphDefaults s).deadlineMiss = s.deadlineMiss := rfl
@[simp] theorem periphDefaults_xferDir : (periphDefaults s).xferDir = s.xferDir := rfl
@[simp] theorem periphDefaults_hwIdx : (periphDefaults s).hwIdx = s.hwIdx := rfl
@[simp] theorem periphDefaults_pending : (periphDefaults s).pending = s.pending := rfl
@[simp] theorem periphDefaults_bounce : (periphDefaults s).bounce = s.bounce := rfl
@[simp] theorem periphDefaults_rdBlocked : (periphDefaults s).rdBlocked = s.rdBlocked := rfl
@[simp] theorem periphDefaults_notifyCount : (periphDefaults s).notifyCount = s.notifyCount := rfl
@[simp] theorem periphDefaults_txWire : (periphDefaults s).txWire = s.txWire := rfl
@[simp] theorem periphDefaults_periphEn : (periphDefaults s).periphEn = false := rfl
@[simp] theorem periphDefaults_periphDir : (periphDefaults s).periphDir = .none := rfl
@[simp] theorem periphDefaults_xferRemaining : (periphDefaults s).xferRemaining = 0 := rfl
@[simp] theorem periphDefaults_sel : (periphDefaults s).sel = s.sel := rfl

/-! `reArm` -/

@[simp] theorem reArm_par : (reArm s).par = s.par := rfl
@[simp] theorem reArm_env : (reArm s).env = s.env := rfl
@[simp] theorem reArm_ports : (reArm s).ports = s.ports := rfl
@[simp] theorem reArm_isOpen : (reArm s).isOpen = s.isOpen := rfl
@[simp] theorem reArm_mode : (reArm s).mode = s.mode := rfl
@[simp] theorem reArm_cfgMult : (reArm s).cfgMult = s.cfgMult := rfl
@[simp] theorem reArm_cfgOffa : (reArm s).cfgOffa = s.cfgOffa := rfl
@[simp] theorem reArm_cfgOffb : (reArm s).cfgOffb = s.cfgOffb := rfl
@[simp] theorem reArm_cap : (reArm s).cap = s.cap := rfl
@[simp] theorem reArm_rx : (reArm s).rx = s.rx := rfl
@[simp] theorem reArm_tx : (reArm s).tx = s.tx := rfl
@[simp] theorem reArm_completed : (reArm s).completed = s.completed := rfl
@[simp] theorem reArm_dropped : (reArm s).dropped = s.dropped := rfl
@[simp] theorem reArm_readable : (reArm s).readable = s.readable := rfl
@[simp] theorem reArm_writeable : (reArm s).writeable = s.writeable := rfl
@[simp] theorem reArm_deadlineMiss : (reArm s).deadlineMiss = s.deadlineMiss := rfl
@[simp] theorem reArm_xferDir : (reArm s).xferDir = s.xferDir := rfl
@[simp] theorem reArm_hwIdx : (reArm s).hwIdx = s.hwIdx := rfl
@[simp] theorem reArm_pending : (reArm s).pending = s.pending := rfl
@[simp] theorem reArm_bounce : (reArm s).bounce = s.bounce := rfl
@[simp] theorem reArm_rdBlocked : (reArm s).rdBlocked = s.rdBlocked := rfl
@[simp] theorem reArm_notifyCount : (reArm s).notifyCount = s.notifyCount := rfl
@[simp] theorem reArm_txWire : (reArm s).txWire = s.txWire := rfl
@[simp] theorem reArm_periphEn : (reArm s).periphEn = s.periphEn := rfl
@[simp] theorem reArm_periphDir : (reArm s).periphDir = s.periphDir := rfl
@[simp] theorem reArm_xferRemaining : (reArm s).xferRemaining = s.par.xferLen := rfl
@[simp] theorem reArm_sel : (reArm s).sel = s.sel := rfl

/-! `startPrepare` -/

@[simp] theorem startPrepare_par (d : Dir) : (startPrepare d s).par = s.par := rfl
@[simp] theorem startPrepare_env (d : Dir) : (startPrepare d s).env = s.env := rfl
@[simp] theorem startPrepare_ports (d : Dir) : (startPrepare d s).ports = s.ports := rfl
@[simp] theorem startPrepare_isOpen (d : Dir) : (startPrepare d s).isOpen = s.isOpen := rfl
@[simp] theorem startPrepare_mode (d : Dir) : (startPrepare d s).mode = s.mode := rfl
@[simp] theorem startPrepare_cfgMult (d : Dir) : (startPrepare d s).cfgMult = s.cfgMult := rfl
@[simp] theorem startPrepare_cfgOffa (d : Dir) : (startPrepare d s).cfgOffa = s.cfgOffa := rfl
@[simp] theorem startPrepare_cfgOffb (d : Dir) : (startPrepare d s).cfgOffb = s.cfgOffb := rfl
@[simp] theorem startPrepare_cap (d : Dir) : (startPrepare d s).cap = s.cap := rfl
@[simp] theorem startPrepare_rx (d : Dir) : (startPrepare d s).rx = s.rx := rfl
@[simp] theorem startPrepare_tx (d : Dir) : (startPrepare d s).tx = s.tx := rfl
@[simp] theorem startPrepare_completed (d : Dir) : (startPrepare d s).completed = 0 := rfl
@[simp] theorem startPrepare_dropped (d : Dir) : (startPrepare d s).dropped = 0 := rfl
@[simp] theorem startPrepare_readable (d : Dir) : (startPrepare d s).readable = s.readable := rfl
@[simp] theorem startPrepare_writeable (d : Dir) : (startPrepare d s).writeable = s.writeable := rfl
@[simp] theorem startPrepare_deadlineMiss (d : Dir) : (startPrepare d s).deadlineMiss = false := rfl
@[simp] theorem startPrepare_xferDir (d : Dir) : (startPrepare d s).xferDir = s.xferDir := rfl
@[simp] theorem startPrepare_hwIdx (d : Dir) : (startPrepare d s).hwIdx = 0 := rfl
@[simp] theorem startPrepare_pending (d : Dir) : (startPrepare d s).pending = 0 := rfl
@[simp] theorem startPrepare_bounce (d : Dir) : (startPrepare d s).bounce = s.bounce := rfl
@[simp] theorem startPrepare_rdBlocked (d : Dir) : (startPrepare d s).rdBlocked = s.rdBlocked := rfl
@[simp] theorem startPrepare_notifyCount (d : Dir) : (startPrepare d s).notifyCount = s.notifyCount := rfl
@[simp] theorem startPrepare_txWire (d : Dir) : (startPrepare d s).txWire = s.txWire := rfl
@[simp] theorem startPrepare_periphEn (d : Dir) : (startPrepare d s).periphEn = true := rfl
@[simp] theorem startPrepare_periphDir (d : Dir) : (startPrepare d s).periphDir = d := rfl
@[simp] theorem startPrepare_xferRemaining (d : Dir) : (startPrepare d s).xferRemaining = s.par.xferLen := rfl
@[simp] theorem startPrepare_sel (d : Dir) : (startPrepare d s).sel = s.sel := rfl

/-! `segmentPosted` -/

@[simp] theorem segmentPosted_par : (segmentPosted s).par = s.par := rfl
@[simp] theorem segmentPosted_env : (segmentPosted s).env = s.env := rfl
@[simp] theorem segmentPosted_ports : (segmentPosted s).ports = s.ports := rfl
@[simp] theorem segmentPosted_isOpen : (segmentPosted s).isOpen = s.isOpen := rfl
@[simp] theorem segmentPosted_mode : (segmentPosted s).mode = s.mode := rfl
@[simp] theorem segmentPosted_cfgMult : (segmentPosted s).cfgMult = s.cfgMult := rfl
@[simp] theorem segmentPosted_cfgOffa : (segmentPosted s).cfgOffa = s.cfgOffa := rfl
@[simp] theorem segmentPosted_cfgOffb : (segmentPosted s).cfgOffb = s.cfgOffb := rfl
@[simp] theorem segmentPosted_cap : (segmentPosted s).cap = s.cap := rfl
@[simp] theorem segmentPosted_rx : (segmentPosted s).rx = s.rx := rfl
@[simp] theorem segmentPosted_tx : (segmentPosted s).tx = s.tx := rfl
@[simp] theorem segmentPosted_completed : (segmentPosted s).completed = s.completed := rfl
@[simp] theorem segmentPosted_dropped : (segmentPosted s).dropped = s.dropped := rfl
@[simp] theorem segmentPosted_readable : (segmentPosted s).readable = s.readable := rfl
@[simp] theorem segmentPosted_writeable : (segmentPosted s).writeable = s.writeable := rfl
@[simp] theorem segmentPosted_deadlineMiss : (segmentPosted s).deadlineMiss = (s.deadlineMiss || decide (0 < s.pending)) := rfl
@[simp] theorem segmentPosted_xferDir : (segmentPosted s).xferDir = s.xferDir := rfl
@[simp] theorem segmentPosted_hwIdx : (segmentPosted s).hwIdx = (s.hwIdx + 1) % s.par.nSeg := rfl
@[simp] theorem segmentPosted_pending : (segmentPosted s).pending = s.pending + 1 := rfl
@[simp] theorem segmentPosted_bounce : (segmentPosted s).bounce = s.bounce := rfl
@[simp] theorem segmentPosted_rdBlocked : (segmentPosted s).rdBlocked = s.rdBlocked := rfl
@[simp] theorem segmentPosted_notifyCount : (segmentPosted s).notifyCount = s.notifyCount := rfl
@[simp] theorem segmentPosted_txWire : (segmentPosted s).txWire = s.txWire := rfl
@[simp] theorem segmentPosted_periphEn : (segmentPosted s).periphEn = s.periphEn := rfl
@[simp] theorem segmentPosted_periphDir : (segmentPosted s).periphDir = s.periphDir := rfl
@[simp] theorem segmentPosted_xferRemaining : (segmentPosted s).xferRemaining = s.xferRemaining - 1 := rfl
@[simp] theorem segmentPosted_sel : (segmentPosted s).sel = s.sel := rfl

/-! `countDrop` -/

@[simp] theorem countDrop_par : (countDrop s).par = s.par := rfl
@[simp] theorem countDrop_env : (countDrop s).env = s.env := rfl
@[simp] theorem countDrop_ports : (countDrop s).ports = s.ports := rfl
@[simp] theorem countDrop_isOpen : (countDrop s).isOpen = s.isOpen := rfl
@[simp] theorem countDrop_mode : (countDrop s).mode = s.mode := rfl
@[simp] theorem countDrop_cfgMult : (countDrop s).cfgMult = s.cfgMult := rfl
@[simp] theorem countDrop_cfgOffa : (countDrop s).cfgOffa = s.cfgOffa := rfl
@[simp] theorem countDrop_cfgOffb : (countDrop s).cfgOffb = s.cfgOffb := rfl
@[simp] theorem countDrop_cap : (countDrop s).cap = s.cap := rfl
@[simp] theorem countDrop_rx : (countDrop s).rx = s.rx := rfl
@[simp] theorem countDrop_tx : (countDrop s).tx = s.tx := rfl
@[simp] theorem countDrop_completed : (countDrop s).completed = s.completed := rfl
@[simp] theorem countDrop_dropped : (countDrop s).dropped = s.dropped + 1 := rfl
@[simp] theorem countDrop_readable : (countDrop s).readable = s.readable := rfl
@[simp] theorem countDrop_writeable : (countDrop s).writeable = s.writeable := rfl
@[simp] theorem countDrop_deadlineMiss : (countDrop s).deadlineMiss = s.deadlineMiss := rfl
@[simp] theorem countDrop_xferDir : (countDrop s).xferDir = s.xferDir := rfl
@[simp] theorem countDrop_hwIdx : (countDrop s).hwIdx = s.hwIdx := rfl
@[simp] theorem countDrop_pending : (countDrop s).pending = s.pending := rfl
@[simp] theorem countDrop_bounce : (countDrop s).bounce = s.bounce := rfl
@[simp] theorem countDrop_rdBlocked : (countDrop s).rdBlocked = s.rdBlocked := rfl
@[simp] theorem countDrop_notifyCount : (countDrop s).notifyCount = s.notifyCount := rfl
@[simp] theorem countDrop_txWire : (countDrop s).txWire = s.txWire := rfl
@[simp] theorem countDrop_periphEn : (countDrop s).periphEn = s.periphEn := rfl
@[simp] theorem countDrop_periphDir : (countDrop s).periphDir = s.periphDir := rfl
@[simp] theorem countDrop_xferRemaining : (countDrop s).xferRemaining = s.xferRemaining := rfl
@[simp] theorem countDrop_sel : (countDrop s).sel = s.sel := rfl

/-! `rxFinish` -/

@[simp] theorem rxFinish_par : (rxFinish s).par = s.par := rfl
@[simp] theorem rxFinish_env : (rxFinish s).env = s.env := rfl
@[simp] theorem rxFinish_ports : (rxFinish s).ports = s.ports := rfl
@[simp] theorem rxFinish_isOpen : (rxFinish s).isOpen = s.isOpen := rfl
@[simp] theorem rxFinish_mode : (rxFinish s).mode = s.mode := rfl
@[simp] theorem rxFinish_cfgMult : (rxFinish s).cfgMult = s.cfgMult := rfl
@[simp] theorem rxFinish_cfgOffa : (rxFinish s).cfgOffa = s.cfgOffa := rfl
@[simp] theorem rxFinish_cfgOffb : (rxFinish s).cfgOffb = s.cfgOffb := rfl
@[simp] theorem rxFinish_cap : (rxFinish s).cap = s.cap := rfl
@[simp] theorem rxFinish_rx : (rxFinish s).rx = s.rx := rfl
@[simp] theorem rxFinish_tx : (rxFinish s).tx = s.tx := rfl
@[simp] theorem rxFinish_completed : (rxFinish s).completed = s.completed + 1 := rfl
@[simp] theorem rxFinish_dropped : (rxFinish s).dropped = s.dropped := rfl
@[simp] theorem rxFinish_readable : (rxFinish s).readable = true := rfl
@[simp] theorem rxFinish_writeable : (rxFinish s).writeable = s.writeable := rfl
@[simp] theorem rxFinish_deadlineMiss : (rxFinish s).deadlineMiss = s.deadlineMiss := rfl
@[simp] theorem rxFinish_xferDir : (rxFinish s).xferDir = s.xferDir := rfl
@[simp] theorem rxFinish_hwIdx : (rxFinish s).hwIdx = s.hwIdx := rfl
@[simp] theorem rxFinish_pending : (rxFinish s).pending = s.pending := rfl
@[simp] theorem rxFinish_bounce : (rxFinish s).bounce = s.bounce := rfl
@[simp] theorem rxFinish_rdBlocked : (rxFinish s).rdBlocked = s.rdBlocked := rfl
@[simp] theorem rxFinish_notifyCount : (rxFinish s).notifyCount = s.notifyCount + 1 := rfl
@[simp] theorem rxFinish_txWire : (rxFinish s).txWire = s.txWire := rfl
@[simp] theorem rxFinish_periphEn : (rxFinish s).periphEn = s.periphEn := rfl
@[simp] theorem rxFinish_periphDir : (rxFinish s).periphDir = s.periphDir := rfl
@[simp] theorem rxFinish_xferRemaining : (rxFinish s).xferRemaining = s.xferRemaining := rfl
@[simp] theorem rxFinish_sel : (rxFinish s).sel = s.sel := rfl

/-! `txFinish` -/

@[simp] theorem txFinish_par : (txFinish s).par = s.par := rfl
@[simp] theorem txFinish_env : (txFinish s).env = s.env := rfl
@[simp] theorem txFinish_ports : (txFinish s).ports = s.ports := rfl
@[simp] theorem txFinish_isOpen : (txFinish s).isOpen = s.isOpen := rfl
@[simp] theorem txFinish_mode : (txFinish s).mode = s.mode := rfl
@[simp] theorem txFinish_cfgMult : (txFinish s).cfgMult = s.cfgMult := rfl
@[simp] theorem txFinish_cfgOffa : (txFinish s).cfgOffa = s.cfgOffa := rfl
@[simp] theorem txFinish_cfgOffb : (txFinish s).cfgOffb = s.cfgOffb := rfl
@[simp] theorem txFinish_cap : (txFinish s).cap = s.cap := rfl
@[simp] theorem txFinish_rx : (txFinish s).rx = s.rx := rfl
@[simp] theorem txFinish_tx : (txFinish s).tx = s.tx := rfl
@[simp] theorem txFinish_completed : (txFinish s).completed = s.completed + 1 := rfl
@[simp] theorem txFinish_dropped : (txFinish s).dropped = s.dropped := rfl
@[simp] theorem txFinish_readable : (txFinish s).readable = s.readable := rfl
@[simp] theorem txFinish_writeable : (txFinish s).writeable = true := rfl
@[simp] theorem txFinish_deadlineMiss : (txFinish s).deadlineMiss = s.deadlineMiss := rfl
@[simp] theorem txFinish_xferDir : (txFinish s).xferDir = s.xferDir := rfl
@[simp] theorem txFinish_hwIdx : (txFinish s).hwIdx = s.hwIdx := rfl
@[simp] theorem txFinish_pending : (txFinish s).pending = s.pending := rfl
@[simp] theorem txFinish_bounce : (txFinish s).bounce = s.bounce := rfl
@[simp] theorem txFinish_rdBlocked : (txFinish s).rdBlocked = s.rdBlocked := rfl
@[simp] theorem txFinish_notifyCount : (txFinish s).notifyCount = s.notifyCount + 1 := rfl
@[simp] theorem txFinish_txWire : (txFinish s).txWire = s.txWire := rfl
@[simp] theorem txFinish_periphEn : (txFinish s).periphEn = s.periphEn := rfl
@[simp] theorem txFinish_periphDir : (txFinish s).periphDir = s.periphDir := rfl
@[simp] theorem txFinish_xferRemaining : (txFinish s).xferRemaining = s.xferRemaining := rfl
@[simp] theorem txFinish_sel : (txFinish s).sel = s.sel := rfl

/-! `enterIdle` -/

@[simp] theorem enterIdle_par : (enterIdle s).par = s.par := rfl
@[simp] theorem enterIdle_env : (enterIdle s).env = s.env := rfl
@[simp] theorem enterIdle_ports : (enterIdle s).ports = s.ports := rfl
@[simp] theorem enterIdle_isOpen : (enterIdle s).isOpen = s.isOpen := rfl
@[simp] theorem enterIdle_mode : (enterIdle s).mode = .idle := rfl
@[simp] theorem enterIdle_cfgMult : (enterIdle s).cfgMult = s.cfgMult := rfl
@[simp] theorem enterIdle_cfgOffa : (enterIdle s).cfgOffa = s.cfgOffa := rfl
@[simp] theorem enterIdle_cfgOffb : (enterIdle s).cfgOffb = s.cfgOffb := rfl
@[simp] theorem enterIdle_cap : (enterIdle s).cap = s.cap := rfl
@[simp] theorem enterIdle_rx : (enterIdle s).rx = s.rx := rfl
@[simp] theorem enterIdle_tx : (enterIdle s).tx = s.tx := rfl
@[simp] theorem enterIdle_completed : (enterIdle s).completed = s.completed := rfl
@[simp] theorem enterIdle_dropped : (enterIdle s).dropped = s.dropped := rfl
@[simp] theorem enterIdle_readable : (enterIdle s).readable = s.readable := rfl
@[simp] theorem enterIdle_writeable : (enterIdle s).writeable = s.writeable := rfl
@[simp] theorem enterIdle_deadlineMiss : (enterIdle s).deadlineMiss = s.deadlineMiss := rfl
@[simp] theorem enterIdle_xferDir : (enterIdle s).xferDir = s.xferDir := rfl
@[simp] theorem enterIdle_hwIdx : (enterIdle s).hwIdx = s.hwIdx := rfl
@[simp] theorem enterIdle_pending : (enterIdle s).pending = s.pending := rfl
@[simp] theorem enterIdle_bounce : (enterIdle s).bounce = s.bounce := rfl
@[simp] theorem enterIdle_rdBlocked : (enterIdle s).rdBlocked = s.rdBlocked := rfl
@[simp] theorem enterIdle_notifyCount : (enterIdle s).notifyCount = s.notifyCount := rfl
@[simp] theorem enterIdle_txWire : (enterIdle s).txWire = s.txWire := rfl
@[simp] theorem enterIdle_periphEn : (enterIdle s).periphEn = s.periphEn := rfl
@[simp] theorem enterIdle_periphDir : (enterIdle s).periphDir = s.periphDir := rfl
@[simp] theorem enterIdle_xferRemaining : (enterIdle s).xferRemaining = s.xferRemaining := rfl
@[simp] theorem enterIdle_sel : (enterIdle s).sel = s.par.selHiz := rfl

/-! `configureSelector` -/

@[simp] theorem configureSelector_par (m : Mode) : (configureSelector m s).par = s.par := rfl
@[simp] theorem configureSelector_env (m : Mode) : (configureSelector m s).env = s.env := rfl
@[simp] theorem configureSelector_ports (m : Mode) : (configureSelector m s).ports = s.ports := rfl
@[simp] theorem configureSelector_isOpen (m : Mode) : (configureSelector m s).isOpen = s.isOpen := rfl
@[simp] theorem configureSelector_mode (m : Mode) : (configureSelector m s).mode = s.mode := rfl
@[simp] theorem configureSelector_cfgMult (m : Mode) : (configureSelector m s).cfgMult = s.cfgMult := rfl
@[simp] theorem configureSelector_cfgOffa (m : Mode) : (configureSelector m s).cfgOffa = s.cfgOffa := rfl
@[simp] theorem configureSelector_cfgOffb (m : Mode) : (configureSelector m s).cfgOffb = s.cfgOffb := rfl
@[simp] theorem configureSelector_cap (m : Mode) : (configureSelector m s).cap = s.cap := rfl
@[simp] theorem configureSelector_rx (m : Mode) : (configureSelector m s).rx = s.rx := rfl
@[simp] theorem configureSelector_tx (m : Mode) : (configureSelector m s).tx = s.tx := rfl
@[simp] theorem configureSelector_completed (m : Mode) : (configureSelector m s).completed = s.completed := rfl
@[simp] theorem configureSelector_dropped (m : Mode) : (configureSelector m s).dropped = s.dropped := rfl
@[simp] theorem configureSelector_readable (m : Mode) : (configureSelector m s).readable = s.readable := rfl
@[simp] theorem configureSelector_writeable (m : Mode) : (configureSelector m s).writeable = s.writeable := rfl
@[simp] theorem configureSelector_deadlineMiss (m : Mode) : (configureSelector m s).deadlineMiss = s.deadlineMiss := rfl
@[simp] theorem configureSelector_xferDir (m : Mode) : (configureSelector m s).xferDir = s.xferDir := rfl
@[simp] theorem configureSelector_hwIdx (m : Mode) : (configureSelector m s).hwIdx = s.hwIdx := rfl
@[simp] theorem configureSelector_pending (m : Mode) : (configureSelector m s).pending = s.pending := rfl
@[simp] theorem configureSelector_bounce (m : Mode) : (configureSelector m s).bounce = s.bounce := rfl
@[simp] theorem configureSelector_rdBlocked (m : Mode) : (configureSelector m s).rdBlocked = s.rdBlocked := rfl
@[simp] theorem configureSelector_notifyCount (m : Mode) : (configureSelector m s).notifyCount = s.notifyCount := rfl
@[simp] theorem configureSelector_txWire (m : Mode) : (configureSelector m s).txWire = s.txWire := rfl
@[simp] theorem configureSelector_periphEn (m : Mode) : (configureSelector m s).periphEn = s.periphEn := rfl
@[simp] theorem configureSelector_periphDir (m : Mode) : (configureSelector m s).periphDir = s.periphDir := rfl
@[simp] theorem configureSelector_xferRemaining (m : Mode) : (configureSelector m s).xferRemaining = s.xferRemaining := rfl
@[simp] theorem configureSelector_sel (m : Mode) : (configureSelector m s).sel = selectorValue s.par m s.cfgOffa s.cfgOffb := rfl

/-! `enterTransmit` -/

@[simp] theorem enterTransmit_par : (enterTransmit s).par = s.par := rfl
@[simp] theorem enterTransmit_env : (enterTransmit s).env = s.env := rfl
@[simp] theorem enterTransmit_ports : (enterTransmit s).ports = s.ports := rfl
@[simp] theorem enterTransmit_isOpen : (enterTransmit s).isOpen = s.isOpen := rfl
@[simp] theorem enterTransmit_mode : (enterTransmit s).mode = .tx := rfl
@[simp] theorem enterTransmit_cfgMult : (enterTransmit s).cfgMult = s.cfgMult := rfl
@[simp] theorem enterTransmit_cfgOffa : (enterTransmit s).cfgOffa = s.cfgOffa := rfl
@[simp] theorem enterTransmit_cfgOffb : (enterTransmit s).cfgOffb = s.cfgOffb := rfl
@[simp] theorem enterTransmit_cap : (enterTransmit s).cap = s.cap := rfl
@[simp] theorem enterTransmit_rx : (enterTransmit s).rx = s.rx := rfl
@[simp] theorem enterTransmit_tx : (enterTransmit s).tx = queueReset s.tx := rfl
@[simp] theorem enterTransmit_completed : (enterTransmit s).completed = s.completed := rfl
@[simp] theorem enterTransmit_dropped : (enterTransmit s).dropped = s.dropped := rfl
@[simp] theorem enterTransmit_readable : (enterTransmit s).readable = s.readable := rfl
@[simp] theorem enterTransmit_writeable : (enterTransmit s).writeable = true := rfl
@[simp] theorem enterTransmit_deadlineMiss : (enterTransmit s).deadlineMiss = s.deadlineMiss := rfl
@[simp] theorem enterTransmit_xferDir : (enterTransmit s).xferDir = s.xferDir := rfl
@[simp] theorem enterTransmit_hwIdx : (enterTransmit s).hwIdx = s.hwIdx := rfl
@[simp] theorem enterTransmit_pending : (enterTransmit s).pending = s.pending := rfl
@[simp] theorem enterTransmit_bounce : (enterTransmit s).bounce = s.bounce := rfl
@[simp] theorem enterTransmit_rdBlocked : (enterTransmit s).rdBlocked = s.rdBlocked := rfl
@[simp] theorem enterTransmit_notifyCount : (enterTransmit s).notifyCount = s.notifyCount + 1 := rfl
@[simp] theorem enterTransmit_txWire : (enterTransmit s).txWire = s.txWire := rfl
@[simp] theorem enterTransmit_periphEn : (enterTransmit s).periphEn = s.periphEn := rfl
@[simp] theorem enterTransmit_periphDir : (enterTransmit s).periphDir = s.periphDir := rfl
@[simp] theorem enterTransmit_xferRemaining : (enterTransmit s).xferRemaining = s.xferRemaining := rfl
@[simp] theorem enterTransmit_sel : (enterTransmit s).sel = s.sel := rfl

/-! `stopTransfer` -/

@[simp] theorem stopTransfer_par : (stopTransfer s).par = s.par := rfl
@[simp] theorem stopTransfer_env : (stopTransfer s).env = (stopPoll s).2 := rfl
@[simp] theorem stopTransfer_ports : (stopTransfer s).ports = s.ports := rfl
@[simp] theorem stopTransfer_isOpen : (stopTransfer s).isOpen = s.isOpen := rfl
@[simp] theorem stopTransfer_mode : (stopTransfer s).mode = s.mode := rfl
@[simp] theorem stopTransfer_cfgMult : (stopTransfer s).cfgMult = s.cfgMult := rfl
@[simp] theorem stopTransfer_cfgOffa : (stopTransfer s).cfgOffa = s.cfgOffa := rfl
@[simp] theorem stopTransfer_cfgOffb : (stopTransfer s).cfgOffb = s.cfgOffb := rfl
@[simp] theorem stopTransfer_cap : (stopTransfer s).cap = s.cap := rfl
@[simp] theorem stopTransfer_rx : (stopTransfer s).rx = s.rx := rfl
@[simp] theorem stopTransfer_tx : (stopTransfer s).tx = s.tx := rfl
@[simp] theorem stopTransfer_completed : (stopTransfer s).completed = s.completed := rfl
@[simp] theorem stopTransfer_dropped : (stopTransfer s).dropped = s.dropped := rfl
@[simp] theorem stopTransfer_readable : (stopTransfer s).readable = s.readable := rfl
@[simp] theorem stopTransfer_writeable : (stopTransfer s).writeable = s.writeable := rfl
@[simp] theorem stopTransfer_deadlineMiss : (stopTransfer s).deadlineMiss = s.deadlineMiss := rfl
@[simp] theorem stopTransfer_xferDir : (stopTransfer s).xferDir = .none := rfl
@[simp] theorem stopTransfer_hwIdx : (stopTransfer s).hwIdx = s.hwIdx := rfl
@[simp] theorem stopTransfer_pending : (stopTransfer s).pending = 0 := rfl
@[simp] theorem stopTransfer_bounce : (stopTransfer s).bounce = s.bounce := rfl
@[simp] theorem stopTransfer_rdBlocked : (stopTransfer s).rdBlocked = s.rdBlocked := rfl
@[simp] theorem stopTransfer_notifyCount : (stopTransfer s).notifyCount = s.notifyCount := rfl
@[simp] theorem stopTransfer_txWire : (stopTransfer s).txWire = s.txWire := rfl
@[simp] theorem stopTransfer_periphEn : (stopTransfer s).periphEn = false := rfl
@[simp] theorem stopTransfer_periphDir : (stopTransfer s).periphDir = .none := rfl
@[simp] theorem stopTransfer_xferRemaining : (stopTransfer s).xferRemaining = 0 := rfl
@[simp] theorem stopTransfer_sel : (stopTransfer s).sel = s.sel := rfl

/-! `releaseState` -/

@[simp] theorem releaseState_par : (releaseState s).par = s.par := rfl
@[simp] theorem releaseState_env : (releaseState s).env = s.env := rfl
@[simp] theorem releaseState_ports : (releaseState s).ports = s.ports := rfl
@[simp] theorem releaseState_isOpen : (releaseState s).isOpen = false := rfl
@[simp] theorem releaseState_mode : (releaseState s).mode = .idle := rfl
@[simp] theorem releaseState_cfgMult : (releaseState s).cfgMult = s.cfgMult := rfl
@[simp] theorem releaseState_cfgOffa : (releaseState s).cfgOffa = s.cfgOffa := rfl
@[simp] theorem releaseState_cfgOffb : (releaseState s).cfgOffb = s.cfgOffb := rfl
@[simp] theorem releaseState_cap : (releaseState s).cap = 0 := rfl
@[simp] theorem releaseState_rx : (releaseState s).rx = Queue.closed := rfl
@[simp] theorem releaseState_tx : (releaseState s).tx = Queue.closed := rfl
@[simp] theorem releaseState_completed : (releaseState s).completed = s.completed := rfl
@[simp] theorem releaseState_dropped : (releaseState s).dropped = s.dropped := rfl
@[simp] theorem releaseState_readable : (releaseState s).readable = false := rfl
@[simp] theorem releaseState_writeable : (releaseState s).writeable = false := rfl
@[simp] theorem releaseState_deadlineMiss : (releaseState s).deadlineMiss = s.deadlineMiss := rfl
@[simp] theorem releaseState_xferDir : (releaseState s).xferDir = s.xferDir := rfl
@[simp] theorem releaseState_hwIdx : (releaseState s).hwIdx = s.hwIdx := rfl
@[simp] theorem releaseState_pending : (releaseState s).pending = s.pending := rfl
@[simp] theorem releaseState_bounce : (releaseState s).bounce = [] := rfl
@[simp] theorem releaseState_rdBlocked : (releaseState s).rdBlocked = s.rdBlocked := rfl
@[simp] theorem releaseState_notifyCount : (releaseState s).notifyCount = s.notifyCount := rfl
@[simp] theorem releaseState_txWire : (releaseState s).txWire = s.txWire := rfl
@[simp] theorem releaseState_periphEn : (releaseState s).periphEn = s.periphEn := rfl
@[simp] theorem releaseState_periphDir : (releaseState s).periphDir = s.periphDir := rfl
@[simp] theorem releaseState_xferRemaining : (releaseState s).xferRemaining = s.xferRemaining := rfl
@[simp] theorem releaseState_sel : (releaseState s).sel = s.par.selHiz := rfl

/-! `turnTaken` -/

@[simp] theorem turnTaken_par : (turnTaken s).par = s.par := rfl
@[simp] theorem turnTaken_env : (turnTaken s).env = dropTurn s.env := rfl
@[simp] theorem turnTaken_ports : (turnTaken s).ports = s.ports := rfl
@[simp] theorem turnTaken_isOpen : (turnTaken s).isOpen = s.isOpen := rfl
@[simp] theorem turnTaken_mode : (turnTaken s).mode = s.mode := rfl
@[simp] theorem turnTaken_cfgMult : (turnTaken s).cfgMult = s.cfgMult := rfl
@[simp] theorem turnTaken_cfgOffa : (turnTaken s).cfgOffa = s.cfgOffa := rfl
@[simp] theorem turnTaken_cfgOffb : (turnTaken s).cfgOffb = s.cfgOffb := rfl
@[simp] theorem turnTaken_cap : (turnTaken s).cap = s.cap := rfl
@[simp] theorem turnTaken_rx : (turnTaken s).rx = s.rx := rfl
@[simp] theorem turnTaken_tx : (turnTaken s).tx = s.tx := rfl
@[simp] theorem turnTaken_completed : (turnTaken s).completed = s.completed := rfl
@[simp] theorem turnTaken_dropped : (turnTaken s).dropped = s.dropped := rfl
@[simp] theorem turnTaken_readable : (turnTaken s).readable = s.readable := rfl
@[simp] theorem turnTaken_writeable : (turnTaken s).writeable = s.writeable := rfl
@[simp] theorem turnTaken_deadlineMiss : (turnTaken s).deadlineMiss = s.deadlineMiss := rfl
@[simp] theorem turnTaken_xferDir : (turnTaken s).xferDir = s.xferDir := rfl
@[simp] theorem turnTaken_hwIdx : (turnTaken s).hwIdx = s.hwIdx := rfl
@[simp] theorem turnTaken_pending : (turnTaken s).pending = s.pending := rfl
@[simp] theorem turnTaken_bounce : (turnTaken s).bounce = s.bounce := rfl
@[simp] theorem turnTaken_rdBlocked : (turnTaken s).rdBlocked = s.rdBlocked := rfl
@[simp] theorem turnTaken_notifyCount : (turnTaken s).notifyCount = s.notifyCount := rfl
@[simp] theorem turnTaken_txWire : (turnTaken s).txWire = s.txWire := rfl
@[simp] theorem turnTaken_periphEn : (turnTaken s).periphEn = s.periphEn := rfl
@[simp] theorem turnTaken_periphDir : (turnTaken s).periphDir = s.periphDir := rfl
@[simp] theorem turnTaken_xferRemaining : (turnTaken s).xferRemaining = s.xferRemaining := rfl
@[simp] theorem turnTaken_sel : (turnTaken s).sel = s.sel := rfl

end

end Sys2Proof.Machine
end

