-- ==== Sys2Proof/Laws/Frames.lean ====
section
/-! SUPPORT. What the operations with cases in them leave of each field, one lemma per field, so that no later proof takes the cases apart for a field they do not touch. -/

namespace Sys2Proof.Machine

section
variable (s : State)

/-! `startTransfer` -/

@[simp] theorem startTransfer_par (d : Dir) : (startTransfer d s).par = s.par := by
  unfold startTransfer; split <;> first | rfl | (split <;> rfl)
@[simp] theorem startTransfer_ports (d : Dir) : (startTransfer d s).ports = s.ports := by
  unfold startTransfer; split <;> first | rfl | (split <;> rfl)
@[simp] theorem startTransfer_isOpen (d : Dir) : (startTransfer d s).isOpen = s.isOpen := by
  unfold startTransfer; split <;> first | rfl | (split <;> rfl)
@[simp] theorem startTransfer_mode (d : Dir) : (startTransfer d s).mode = s.mode := by
  unfold startTransfer; split <;> first | rfl | (split <;> rfl)
@[simp] theorem startTransfer_cfgMult (d : Dir) : (startTransfer d s).cfgMult = s.cfgMult := by
  unfold startTransfer; split <;> first | rfl | (split <;> rfl)
@[simp] theorem startTransfer_cfgOffa (d : Dir) : (startTransfer d s).cfgOffa = s.cfgOffa := by
  unfold startTransfer; split <;> first | rfl | (split <;> rfl)
@[simp] theorem startTransfer_cfgOffb (d : Dir) : (startTransfer d s).cfgOffb = s.cfgOffb := by
  unfold startTransfer; split <;> first | rfl | (split <;> rfl)
@[simp] theorem startTransfer_cap (d : Dir) : (startTransfer d s).cap = s.cap := by
  unfold startTransfer; split <;> first | rfl | (split <;> rfl)
@[simp] theorem startTransfer_rx (d : Dir) : (startTransfer d s).rx = s.rx := by
  unfold startTransfer; split <;> first | rfl | (split <;> rfl)
@[simp] theorem startTransfer_tx (d : Dir) : (startTransfer d s).tx = s.tx := by
  unfold startTransfer; split <;> first | rfl | (split <;> rfl)
@[simp] theorem startTransfer_completed (d : Dir) : (startTransfer d s).completed = 0 := by
  unfold startTransfer; split <;> first | rfl | (split <;> rfl)
@[simp] theorem startTransfer_dropped (d : Dir) : (startTransfer d s).dropped = 0 := by
  unfold startTransfer; split <;> first | rfl | (split <;> rfl)
@[simp] theorem startTransfer_readable (d : Dir) : (startTransfer d s).readable = s.readable := by
  unfold startTransfer; split <;> first | rfl | (split <;> rfl)
@[simp] theorem startTransfer_writeable (d : Dir) : (startTransfer d s).writeable = s.writeable := by
  unfold startTransfer; split <;> first | rfl | (split <;> rfl)
@[simp] theorem startTransfer_deadlineMiss (d : Dir) : (startTransfer d s).deadlineMiss = false := by
  unfold startTransfer; split <;> first | rfl | (split <;> rfl)
@[simp] theorem startTransfer_hwIdx (d : Dir) : (startTransfer d s).hwIdx = 0 := by
  unfold startTransfer; split <;> first | rfl | (split <;> rfl)
@[simp] theorem startTransfer_pending (d : Dir) : (startTransfer d s).pending = 0 := by
  unfold startTransfer; split <;> first | rfl | (split <;> rfl)
@[simp] theorem startTransfer_bounce (d : Dir) : (startTransfer d s).bounce = s.bounce := by
  unfold startTransfer; split <;> first | rfl | (split <;> rfl)
@[simp] theorem startTransfer_rdBlocked (d : Dir) : (startTransfer d s).rdBlocked = s.rdBlocked := by
  unfold startTransfer; split <;> first | rfl | (split <;> rfl)
@[simp] theorem startTransfer_notifyCount (d : Dir) : (startTransfer d s).notifyCount = s.notifyCount := by
  unfold startTransfer; split <;> first | rfl | (split <;> rfl)
@[simp] theorem startTransfer_txWire (d : Dir) : (startTransfer d s).txWire = s.txWire := by
  unfold startTransfer; split <;> first | rfl | (split <;> rfl)
@[simp] theorem startTransfer_sel (d : Dir) : (startTransfer d s).sel = s.sel := by
  unfold startTransfer; split <;> first | rfl | (split <;> rfl)

/-! `contentionDrawn` -/

@[simp] theorem contentionDrawn_par : (contentionDrawn s).par = s.par := by
  unfold contentionDrawn; split <;> rfl
@[simp] theorem contentionDrawn_ports : (contentionDrawn s).ports = s.ports := by
  unfold contentionDrawn; split <;> rfl
@[simp] theorem contentionDrawn_isOpen : (contentionDrawn s).isOpen = s.isOpen := by
  unfold contentionDrawn; split <;> rfl
@[simp] theorem contentionDrawn_mode : (contentionDrawn s).mode = s.mode := by
  unfold contentionDrawn; split <;> rfl
@[simp] theorem contentionDrawn_cfgMult : (contentionDrawn s).cfgMult = s.cfgMult := by
  unfold contentionDrawn; split <;> rfl
@[simp] theorem contentionDrawn_cfgOffa : (contentionDrawn s).cfgOffa = s.cfgOffa := by
  unfold contentionDrawn; split <;> rfl
@[simp] theorem contentionDrawn_cfgOffb : (contentionDrawn s).cfgOffb = s.cfgOffb := by
  unfold contentionDrawn; split <;> rfl
@[simp] theorem contentionDrawn_cap : (contentionDrawn s).cap = s.cap := by
  unfold contentionDrawn; split <;> rfl
@[simp] theorem contentionDrawn_rx : (contentionDrawn s).rx = s.rx := by
  unfold contentionDrawn; split <;> rfl
@[simp] theorem contentionDrawn_tx : (contentionDrawn s).tx = s.tx := by
  unfold contentionDrawn; split <;> rfl
@[simp] theorem contentionDrawn_completed : (contentionDrawn s).completed = s.completed := by
  unfold contentionDrawn; split <;> rfl
@[simp] theorem contentionDrawn_dropped : (contentionDrawn s).dropped = s.dropped := by
  unfold contentionDrawn; split <;> rfl
@[simp] theorem contentionDrawn_readable : (contentionDrawn s).readable = s.readable := by
  unfold contentionDrawn; split <;> rfl
@[simp] theorem contentionDrawn_writeable : (contentionDrawn s).writeable = s.writeable := by
  unfold contentionDrawn; split <;> rfl
@[simp] theorem contentionDrawn_deadlineMiss : (contentionDrawn s).deadlineMiss = s.deadlineMiss := by
  unfold contentionDrawn; split <;> rfl
@[simp] theorem contentionDrawn_xferDir : (contentionDrawn s).xferDir = s.xferDir := by
  unfold contentionDrawn; split <;> rfl
@[simp] theorem contentionDrawn_hwIdx : (contentionDrawn s).hwIdx = s.hwIdx := by
  unfold contentionDrawn; split <;> rfl
@[simp] theorem contentionDrawn_pending : (contentionDrawn s).pending = s.pending := by
  unfold contentionDrawn; split <;> rfl
@[simp] theorem contentionDrawn_bounce : (contentionDrawn s).bounce = s.bounce := by
  unfold contentionDrawn; split <;> rfl
@[simp] theorem contentionDrawn_rdBlocked : (contentionDrawn s).rdBlocked = s.rdBlocked := by
  unfold contentionDrawn; split <;> rfl
@[simp] theorem contentionDrawn_notifyCount : (contentionDrawn s).notifyCount = s.notifyCount := by
  unfold contentionDrawn; split <;> rfl
@[simp] theorem contentionDrawn_txWire : (contentionDrawn s).txWire = s.txWire := by
  unfold contentionDrawn; split <;> rfl
@[simp] theorem contentionDrawn_periphEn : (contentionDrawn s).periphEn = s.periphEn := by
  unfold contentionDrawn; split <;> rfl
@[simp] theorem contentionDrawn_periphDir : (contentionDrawn s).periphDir = s.periphDir := by
  unfold contentionDrawn; split <;> rfl
@[simp] theorem contentionDrawn_xferRemaining : (contentionDrawn s).xferRemaining = s.xferRemaining := by
  unfold contentionDrawn; split <;> rfl
@[simp] theorem contentionDrawn_sel : (contentionDrawn s).sel = s.sel := by
  unfold contentionDrawn; split <;> rfl

/-! `txRestartCheck` -/

@[simp] theorem txRestartCheck_par : (txRestartCheck s).par = s.par := by
  unfold txRestartCheck; split <;> rfl
@[simp] theorem txRestartCheck_env : (txRestartCheck s).env = dropBit s.env := by
  unfold txRestartCheck; split <;> rfl
@[simp] theorem txRestartCheck_ports : (txRestartCheck s).ports = s.ports := by
  unfold txRestartCheck; split <;> rfl
@[simp] theorem txRestartCheck_isOpen : (txRestartCheck s).isOpen = s.isOpen := by
  unfold txRestartCheck; split <;> rfl
@[simp] theorem txRestartCheck_mode : (txRestartCheck s).mode = s.mode := by
  unfold txRestartCheck; split <;> rfl
@[simp] theorem txRestartCheck_cfgMult : (txRestartCheck s).cfgMult = s.cfgMult := by
  unfold txRestartCheck; split <;> rfl
@[simp] theorem txRestartCheck_cfgOffa : (txRestartCheck s).cfgOffa = s.cfgOffa := by
  unfold txRestartCheck; split <;> rfl
@[simp] theorem txRestartCheck_cfgOffb : (txRestartCheck s).cfgOffb = s.cfgOffb := by
  unfold txRestartCheck; split <;> rfl
@[simp] theorem txRestartCheck_cap : (txRestartCheck s).cap = s.cap := by
  unfold txRestartCheck; split <;> rfl
@[simp] theorem txRestartCheck_rx : (txRestartCheck s).rx = s.rx := by
  unfold txRestartCheck; split <;> rfl
@[simp] theorem txRestartCheck_tx : (txRestartCheck s).tx = s.tx := by
  unfold txRestartCheck; split <;> rfl
@[simp] theorem txRestartCheck_completed : (txRestartCheck s).completed = s.completed := by
  unfold txRestartCheck; split <;> rfl
@[simp] theorem txRestartCheck_dropped : (txRestartCheck s).dropped = s.dropped := by
  unfold txRestartCheck; split <;> rfl
@[simp] theorem txRestartCheck_readable : (txRestartCheck s).readable = s.readable := by
  unfold txRestartCheck; split <;> rfl
@[simp] theorem txRestartCheck_writeable : (txRestartCheck s).writeable = s.writeable := by
  unfold txRestartCheck; split <;> rfl
@[simp] theorem txRestartCheck_deadlineMiss : (txRestartCheck s).deadlineMiss = s.deadlineMiss := by
  unfold txRestartCheck; split <;> rfl
@[simp] theorem txRestartCheck_xferDir : (txRestartCheck s).xferDir = s.xferDir := by
  unfold txRestartCheck; split <;> rfl
@[simp] theorem txRestartCheck_hwIdx : (txRestartCheck s).hwIdx = s.hwIdx := by
  unfold txRestartCheck; split <;> rfl
@[simp] theorem txRestartCheck_pending : (txRestartCheck s).pending = s.pending := by
  unfold txRestartCheck; split <;> rfl
@[simp] theorem txRestartCheck_bounce : (txRestartCheck s).bounce = s.bounce := by
  unfold txRestartCheck; split <;> rfl
@[simp] theorem txRestartCheck_rdBlocked : (txRestartCheck s).rdBlocked = s.rdBlocked := by
  unfold txRestartCheck; split <;> rfl
@[simp] theorem txRestartCheck_notifyCount : (txRestartCheck s).notifyCount = s.notifyCount := by
  unfold txRestartCheck; split <;> rfl
@[simp] theorem txRestartCheck_txWire : (txRestartCheck s).txWire = s.txWire := by
  unfold txRestartCheck; split <;> rfl
@[simp] theorem txRestartCheck_sel : (txRestartCheck s).sel = s.sel := by
  unfold txRestartCheck; split <;> rfl

/-! `interruptRead` -/

@[simp] theorem interruptRead_par : (interruptRead s).par = s.par := by
  unfold interruptRead; split <;> rfl
@[simp] theorem interruptRead_env : (interruptRead s).env = s.env := by
  unfold interruptRead; split <;> rfl
@[simp] theorem interruptRead_isOpen : (interruptRead s).isOpen = s.isOpen := by
  unfold interruptRead; split <;> rfl
@[simp] theorem interruptRead_mode : (interruptRead s).mode = s.mode := by
  unfold interruptRead; split <;> rfl
@[simp] theorem interruptRead_cfgMult : (interruptRead s).cfgMult = s.cfgMult := by
  unfold interruptRead; split <;> rfl
@[simp] theorem interruptRead_cfgOffa : (interruptRead s).cfgOffa = s.cfgOffa := by
  unfold interruptRead; split <;> rfl
@[simp] theorem interruptRead_cfgOffb : (interruptRead s).cfgOffb = s.cfgOffb := by
  unfold interruptRead; split <;> rfl
@[simp] theorem interruptRead_cap : (interruptRead s).cap = s.cap := by
  unfold interruptRead; split <;> rfl
@[simp] theorem interruptRead_rx : (interruptRead s).rx = s.rx := by
  unfold interruptRead; split <;> rfl
@[simp] theorem interruptRead_tx : (interruptRead s).tx = s.tx := by
  unfold interruptRead; split <;> rfl
@[simp] theorem interruptRead_completed : (interruptRead s).completed = s.completed := by
  unfold interruptRead; split <;> rfl
@[simp] theorem interruptRead_dropped : (interruptRead s).dropped = s.dropped := by
  unfold interruptRead; split <;> rfl
@[simp] theorem interruptRead_readable : (interruptRead s).readable = s.readable := by
  unfold interruptRead; split <;> rfl
@[simp] theorem interruptRead_writeable : (interruptRead s).writeable = s.writeable := by
  unfold interruptRead; split <;> rfl
@[simp] theorem interruptRead_deadlineMiss : (interruptRead s).deadlineMiss = s.deadlineMiss := by
  unfold interruptRead; split <;> rfl
@[simp] theorem interruptRead_xferDir : (interruptRead s).xferDir = s.xferDir := by
  unfold interruptRead; split <;> rfl
@[simp] theorem interruptRead_hwIdx : (interruptRead s).hwIdx = s.hwIdx := by
  unfold interruptRead; split <;> rfl
@[simp] theorem interruptRead_pending : (interruptRead s).pending = s.pending := by
  unfold interruptRead; split <;> rfl
@[simp] theorem interruptRead_bounce : (interruptRead s).bounce = s.bounce := by
  unfold interruptRead; split <;> rfl
@[simp] theorem interruptRead_notifyCount : (interruptRead s).notifyCount = s.notifyCount := by
  unfold interruptRead; split <;> rfl
@[simp] theorem interruptRead_txWire : (interruptRead s).txWire = s.txWire := by
  unfold interruptRead; split <;> rfl
@[simp] theorem interruptRead_periphEn : (interruptRead s).periphEn = s.periphEn := by
  unfold interruptRead; split <;> rfl
@[simp] theorem interruptRead_periphDir : (interruptRead s).periphDir = s.periphDir := by
  unfold interruptRead; split <;> rfl
@[simp] theorem interruptRead_xferRemaining : (interruptRead s).xferRemaining = s.xferRemaining := by
  unfold interruptRead; split <;> rfl
@[simp] theorem interruptRead_sel : (interruptRead s).sel = s.sel := by
  unfold interruptRead; split <;> rfl

/-! `deviceBusyOutcome` -/

@[simp] theorem deviceBusyOutcome_par : (deviceBusyOutcome s).par = s.par := by
  unfold deviceBusyOutcome; split <;> rfl
@[simp] theorem deviceBusyOutcome_env : (deviceBusyOutcome s).env = dropBit s.env := by
  unfold deviceBusyOutcome; split <;> rfl
@[simp] theorem deviceBusyOutcome_ports : (deviceBusyOutcome s).ports = s.ports := by
  unfold deviceBusyOutcome; split <;> rfl
@[simp] theorem deviceBusyOutcome_isOpen : (deviceBusyOutcome s).isOpen = s.isOpen := by
  unfold deviceBusyOutcome; split <;> rfl
@[simp] theorem deviceBusyOutcome_cfgMult : (deviceBusyOutcome s).cfgMult = s.cfgMult := by
  unfold deviceBusyOutcome; split <;> rfl
@[simp] theorem deviceBusyOutcome_cfgOffa : (deviceBusyOutcome s).cfgOffa = s.cfgOffa := by
  unfold deviceBusyOutcome; split <;> rfl
@[simp] theorem deviceBusyOutcome_cfgOffb : (deviceBusyOutcome s).cfgOffb = s.cfgOffb := by
  unfold deviceBusyOutcome; split <;> rfl
@[simp] theorem deviceBusyOutcome_cap : (deviceBusyOutcome s).cap = s.cap := by
  unfold deviceBusyOutcome; split <;> rfl
@[simp] theorem deviceBusyOutcome_rx : (deviceBusyOutcome s).rx = s.rx := by
  unfold deviceBusyOutcome; split <;> rfl
@[simp] theorem deviceBusyOutcome_tx : (deviceBusyOutcome s).tx = s.tx := by
  unfold deviceBusyOutcome; split <;> rfl
@[simp] theorem deviceBusyOutcome_completed : (deviceBusyOutcome s).completed = s.completed := by
  unfold deviceBusyOutcome; split <;> rfl
@[simp] theorem deviceBusyOutcome_dropped : (deviceBusyOutcome s).dropped = s.dropped := by
  unfold deviceBusyOutcome; split <;> rfl
@[simp] theorem deviceBusyOutcome_readable : (deviceBusyOutcome s).readable = s.readable := by
  unfold deviceBusyOutcome; split <;> rfl
@[simp] theorem deviceBusyOutcome_writeable : (deviceBusyOutcome s).writeable = s.writeable := by
  unfold deviceBusyOutcome; split <;> rfl
@[simp] theorem deviceBusyOutcome_deadlineMiss : (deviceBusyOutcome s).deadlineMiss = s.deadlineMiss := by
  unfold deviceBusyOutcome; split <;> rfl
@[simp] theorem deviceBusyOutcome_xferDir : (deviceBusyOutcome s).xferDir = s.xferDir := by
  unfold deviceBusyOutcome; split <;> rfl
@[simp] theorem deviceBusyOutcome_hwIdx : (deviceBusyOutcome s).hwIdx = s.hwIdx := by
  unfold deviceBusyOutcome; split <;> rfl
@[simp] theorem deviceBusyOutcome_pending : (deviceBusyOutcome s).pending = s.pending := by
  unfold deviceBusyOutcome; split <;> rfl
@[simp] theorem deviceBusyOutcome_bounce : (deviceBusyOutcome s).bounce = s.bounce := by
  unfold deviceBusyOutcome; split <;> rfl
@[simp] theorem deviceBusyOutcome_rdBlocked : (deviceBusyOutcome s).rdBlocked = s.rdBlocked := by
  unfold deviceBusyOutcome; split <;> rfl
@[simp] theorem deviceBusyOutcome_notifyCount : (deviceBusyOutcome s).notifyCount = s.notifyCount := by
  unfold deviceBusyOutcome; split <;> rfl
@[simp] theorem deviceBusyOutcome_txWire : (deviceBusyOutcome s).txWire = s.txWire := by
  unfold deviceBusyOutcome; split <;> rfl
@[simp] theorem deviceBusyOutcome_periphEn : (deviceBusyOutcome s).periphEn = s.periphEn := by
  unfold deviceBusyOutcome; split <;> rfl
@[simp] theorem deviceBusyOutcome_periphDir : (deviceBusyOutcome s).periphDir = s.periphDir := by
  unfold deviceBusyOutcome; split <;> rfl
@[simp] theorem deviceBusyOutcome_xferRemaining : (deviceBusyOutcome s).xferRemaining = s.xferRemaining := by
  unfold deviceBusyOutcome; split <;> rfl

/-! `takeRx` -/

@[simp] theorem takeRx_par (n : Word) : (takeRx n s).par = s.par := rfl
@[simp] theorem takeRx_env (n : Word) : (takeRx n s).env = s.env := rfl
@[simp] theorem takeRx_isOpen (n : Word) : (takeRx n s).isOpen = s.isOpen := rfl
@[simp] theorem takeRx_mode (n : Word) : (takeRx n s).mode = s.mode := rfl
@[simp] theorem takeRx_cfgMult (n : Word) : (takeRx n s).cfgMult = s.cfgMult := rfl
@[simp] theorem takeRx_cfgOffa (n : Word) : (takeRx n s).cfgOffa = s.cfgOffa := rfl
@[simp] theorem takeRx_cfgOffb (n : Word) : (takeRx n s).cfgOffb = s.cfgOffb := rfl
@[simp] theorem takeRx_cap (n : Word) : (takeRx n s).cap = s.cap := rfl
@[simp] theorem takeRx_rx (n : Word) : (takeRx n s).rx = queuePop s.cap s.rx n.toNat := rfl
@[simp] theorem takeRx_tx (n : Word) : (takeRx n s).tx = s.tx := rfl
@[simp] theorem takeRx_completed (n : Word) : (takeRx n s).completed = s.completed := rfl
@[simp] theorem takeRx_dropped (n : Word) : (takeRx n s).dropped = s.dropped := rfl
@[simp] theorem takeRx_writeable (n : Word) : (takeRx n s).writeable = s.writeable := rfl
@[simp] theorem takeRx_deadlineMiss (n : Word) : (takeRx n s).deadlineMiss = s.deadlineMiss := rfl
@[simp] theorem takeRx_xferDir (n : Word) : (takeRx n s).xferDir = s.xferDir := rfl
@[simp] theorem takeRx_hwIdx (n : Word) : (takeRx n s).hwIdx = s.hwIdx := rfl
@[simp] theorem takeRx_pending (n : Word) : (takeRx n s).pending = s.pending := rfl
@[simp] theorem takeRx_bounce (n : Word) : (takeRx n s).bounce = s.bounce := rfl
@[simp] theorem takeRx_rdBlocked (n : Word) : (takeRx n s).rdBlocked = s.rdBlocked := rfl
@[simp] theorem takeRx_notifyCount (n : Word) : (takeRx n s).notifyCount = s.notifyCount := rfl
@[simp] theorem takeRx_txWire (n : Word) : (takeRx n s).txWire = s.txWire := rfl
@[simp] theorem takeRx_periphEn (n : Word) : (takeRx n s).periphEn = s.periphEn := rfl
@[simp] theorem takeRx_periphDir (n : Word) : (takeRx n s).periphDir = s.periphDir := rfl
@[simp] theorem takeRx_xferRemaining (n : Word) : (takeRx n s).xferRemaining = s.xferRemaining := rfl
@[simp] theorem takeRx_sel (n : Word) : (takeRx n s).sel = s.sel := rfl

/-! `writePush` -/

@[simp] theorem writePush_par (b : List Byte) : (writePush b s).par = s.par := rfl
@[simp] theorem writePush_env (b : List Byte) : (writePush b s).env = s.env := rfl
@[simp] theorem writePush_ports (b : List Byte) : (writePush b s).ports = s.ports := rfl
@[simp] theorem writePush_isOpen (b : List Byte) : (writePush b s).isOpen = s.isOpen := rfl
@[simp] theorem writePush_mode (b : List Byte) : (writePush b s).mode = s.mode := rfl
@[simp] theorem writePush_cfgMult (b : List Byte) : (writePush b s).cfgMult = s.cfgMult := rfl
@[simp] theorem writePush_cfgOffa (b : List Byte) : (writePush b s).cfgOffa = s.cfgOffa := rfl
@[simp] theorem writePush_cfgOffb (b : List Byte) : (writePush b s).cfgOffb = s.cfgOffb := rfl
@[simp] theorem writePush_cap (b : List Byte) : (writePush b s).cap = s.cap := rfl
@[simp] theorem writePush_rx (b : List Byte) : (writePush b s).rx = s.rx := rfl
@[simp] theorem writePush_tx (b : List Byte) : (writePush b s).tx = queuePush s.cap s.tx b := rfl
@[simp] theorem writePush_completed (b : List Byte) : (writePush b s).completed = s.completed := rfl
@[simp] theorem writePush_dropped (b : List Byte) : (writePush b s).dropped = s.dropped := rfl
@[simp] theorem writePush_readable (b : List Byte) : (writePush b s).readable = s.readable := rfl
@[simp] theorem writePush_deadlineMiss (b : List Byte) : (writePush b s).deadlineMiss = s.deadlineMiss := rfl
@[simp] theorem writePush_xferDir (b : List Byte) : (writePush b s).xferDir = s.xferDir := rfl
@[simp] theorem writePush_hwIdx (b : List Byte) : (writePush b s).hwIdx = s.hwIdx := rfl
@[simp] theorem writePush_pending (b : List Byte) : (writePush b s).pending = s.pending := rfl
@[simp] theorem writePush_bounce (b : List Byte) : (writePush b s).bounce = s.bounce := rfl
@[simp] theorem writePush_rdBlocked (b : List Byte) : (writePush b s).rdBlocked = s.rdBlocked := rfl
@[simp] theorem writePush_notifyCount (b : List Byte) : (writePush b s).notifyCount = s.notifyCount := rfl
@[simp] theorem writePush_txWire (b : List Byte) : (writePush b s).txWire = s.txWire := rfl
@[simp] theorem writePush_periphEn (b : List Byte) : (writePush b s).periphEn = s.periphEn := rfl
@[simp] theorem writePush_periphDir (b : List Byte) : (writePush b s).periphDir = s.periphDir := rfl
@[simp] theorem writePush_xferRemaining (b : List Byte) : (writePush b s).xferRemaining = s.xferRemaining := rfl
@[simp] theorem writePush_sel (b : List Byte) : (writePush b s).sel = s.sel := rfl

/-! `openState` -/

@[simp] theorem openState_par : (openState s).par = s.par := rfl
@[simp] theorem openState_ports : (openState s).ports = s.ports := rfl
@[simp] theorem openState_isOpen : (openState s).isOpen = true := rfl
@[simp] theorem openState_mode : (openState s).mode = .idle := rfl
@[simp] theorem openState_cfgMult : (openState s).cfgMult = s.cfgMult := rfl
@[simp] theorem openState_cfgOffa : (openState s).cfgOffa = s.cfgOffa := rfl
@[simp] theorem openState_cfgOffb : (openState s).cfgOffb = s.cfgOffb := rfl
@[simp] theorem openState_cap : (openState s).cap = s.cfgMult.toNat * s.par.unit := rfl
@[simp] theorem openState_rx : (openState s).rx = queueNew (s.cfgMult.toNat * s.par.unit) := rfl
@[simp] theorem openState_tx : (openState s).tx = queueNew (s.cfgMult.toNat * s.par.unit) := rfl
@[simp] theorem openState_completed : (openState s).completed = 0 := rfl
@[simp] theorem openState_dropped : (openState s).dropped = 0 := rfl
@[simp] theorem openState_readable : (openState s).readable = false := rfl
@[simp] theorem openState_writeable : (openState s).writeable = false := rfl
@[simp] theorem openState_deadlineMiss : (openState s).deadlineMiss = false := rfl
@[simp] theorem openState_xferDir : (openState s).xferDir = .none := rfl
@[simp] theorem openState_hwIdx : (openState s).hwIdx = 0 := rfl
@[simp] theorem openState_pending : (openState s).pending = 0 := rfl
@[simp] theorem openState_rdBlocked : (openState s).rdBlocked = s.rdBlocked := rfl
@[simp] theorem openState_notifyCount : (openState s).notifyCount = s.notifyCount := rfl
@[simp] theorem openState_txWire : (openState s).txWire = s.txWire := rfl
@[simp] theorem openState_periphEn : (openState s).periphEn = false := rfl
@[simp] theorem openState_periphDir : (openState s).periphDir = .none := rfl
@[simp] theorem openState_xferRemaining : (openState s).xferRemaining = 0 := rfl
@[simp] theorem openState_sel : (openState s).sel = s.par.selHiz := rfl

end

end Sys2Proof.Machine
end

