-- ==== Sys2Proof/Laws/Memory.lean ====
section
/-! SUPPORT. The laws of bounce memory: reads after writes, the canonical form, and when an access succeeds. -/

namespace Sys2Proof.Machine

@[simp] theorem Memory.read_nil (a : Nat) : Memory.read [] a = none := rfl

@[simp] theorem Memory.read_cons (k : Nat) (b : Byte) (m : Memory) (a : Nat) :
    Memory.read ((k, b) :: m) a = if k = a then some b else Memory.read m a := rfl

/-- An address reads as a value exactly when a cell stands there. -/
theorem Memory.read_isSome_iff (m : Memory) (a : Nat) : (∃ b, Memory.read m a = some b) ↔ a ∈ m.map Prod.fst := by
  induction m with
  | nil => simp
  | cons c m ih =>
    obtain ⟨k, b⟩ := c
    by_cases h : k = a
    · simp [h]
    · have h' : ¬ a = k := fun e => h e.symm
      simp only [Memory.read_cons, if_neg h, ih, List.map_cons, List.mem_cons, h', false_or]

/-- A write keeps the addresses, so it keeps the canonical form. -/
theorem Memory.write_addrs {m m' : Memory} {a : Nat} {x : Byte} (h : Memory.write m a x = some m') :
    m'.map Prod.fst = m.map Prod.fst := by
  induction m generalizing m' with
  | nil => simp [Memory.write] at h
  | cons c m ih =>
    obtain ⟨k, b⟩ := c
    simp only [Memory.write] at h
    split at h
    · simp only [Option.some.injEq] at h
      simp [← h]
    · obtain ⟨m1, h1, rfl⟩ := Option.map_eq_some_iff.mp h
      simp [ih h1]

/-- A write succeeds exactly where a cell stands. -/
theorem Memory.write_exists {m : Memory} {a : Nat} {x : Byte} (h : a ∈ m.map Prod.fst) :
    ∃ m', Memory.write m a x = some m' := by
  induction m with
  | nil => simp at h
  | cons c m ih =>
    obtain ⟨k, b⟩ := c
    by_cases hk : k = a
    · exact ⟨(k, x) :: m, by simp only [Memory.write, if_pos hk]⟩
    · have h' : ¬ a = k := fun e => hk e.symm
      simp only [List.map_cons, List.mem_cons, h', false_or] at h
      obtain ⟨m1, h1⟩ := ih h
      exact ⟨(k, b) :: m1, by simp only [Memory.write, if_neg hk, h1, Option.map_some]⟩

/-- Read after write, same address. -/
theorem Memory.read_write_same {m m' : Memory} {a : Nat} {x : Byte} (h : Memory.write m a x = some m') :
    Memory.read m' a = some x := by
  induction m generalizing m' with
  | nil => simp [Memory.write] at h
  | cons c m ih =>
    obtain ⟨k, b⟩ := c
    simp only [Memory.write] at h
    split at h
    · rename_i hk
      simp only [Option.some.injEq] at h
      simp [← h, hk]
    · rename_i hk
      obtain ⟨m1, h1, rfl⟩ := Option.map_eq_some_iff.mp h
      simp [hk, ih h1]

/-- Read after write, another address. -/
theorem Memory.read_write_other {m m' : Memory} {a c : Nat} {x : Byte} (h : Memory.write m a x = some m') (hc : c ≠ a) :
    Memory.read m' c = Memory.read m c := by
  induction m generalizing m' with
  | nil => simp [Memory.write] at h
  | cons d m ih =>
    obtain ⟨k, b⟩ := d
    simp only [Memory.write] at h
    split at h
    · rename_i hk
      simp only [Option.some.injEq] at h
      have h' : ¬ k = c := fun e => hc (e ▸ hk)
      simp [← h, h']
    · obtain ⟨m1, h1, rfl⟩ := Option.map_eq_some_iff.mp h
      simp only [Memory.read_cons, ih h1]

/-- Storing bytes keeps the addresses. -/
theorem Memory.writeBytes_addrs {m m' : Memory} {a : Nat} {bs : List Byte} (h : Memory.writeBytes m a bs = some m') :
    m'.map Prod.fst = m.map Prod.fst := by
  induction bs generalizing m a with
  | nil => simp only [Memory.writeBytes, Option.some.injEq] at h; rw [h]
  | cons b bs ih =>
    simp only [Memory.writeBytes] at h
    split at h
    · cases h
    · rename_i m1 h1
      rw [ih h, Memory.write_addrs h1]

/-- Storing bytes keeps the canonical form. -/
theorem Memory.writeBytes_wf {m m' : Memory} {a : Nat} {bs : List Byte} (h : Memory.writeBytes m a bs = some m')
    (hm : Memory.wf m) : Memory.wf m' := by
  unfold Memory.wf at *
  rw [Memory.writeBytes_addrs h]
  exact hm

/-- Storing bytes succeeds where cells stand. -/
theorem Memory.writeBytes_exists {m : Memory} {a : Nat} {bs : List Byte}
    (h : ∀ i, i < bs.length → a + i ∈ m.map Prod.fst) : ∃ m', Memory.writeBytes m a bs = some m' := by
  induction bs generalizing m a with
  | nil => exact ⟨m, rfl⟩
  | cons b bs ih =>
    obtain ⟨m1, h1⟩ := Memory.write_exists (x := b) (by simpa using h 0 (by simp) : a ∈ m.map Prod.fst)
    have h2 : ∀ i, i < bs.length → a + 1 + i ∈ m1.map Prod.fst := by
      intro i hi
      rw [Memory.write_addrs h1]
      have := h (i + 1) (by simp only [List.length_cons]; omega)
      rwa [show a + 1 + i = a + (i + 1) by omega]
    obtain ⟨m2, hm2⟩ := ih h2
    exact ⟨m2, by simp only [Memory.writeBytes, h1]; exact hm2⟩

/-- Storing bytes leaves every address outside them alone. -/
theorem Memory.read_writeBytes_outside {m m' : Memory} {a c : Nat} {bs : List Byte}
    (h : Memory.writeBytes m a bs = some m') (hc : c < a ∨ a + bs.length ≤ c) : Memory.read m' c = Memory.read m c := by
  induction bs generalizing m a with
  | nil => simp only [Memory.writeBytes, Option.some.injEq] at h; rw [h]
  | cons b bs ih =>
    simp only [Memory.writeBytes] at h
    simp only [List.length_cons] at hc
    split at h
    · cases h
    · rename_i m1 h1
      rw [ih h (by omega), Memory.read_write_other h1 (by omega)]

/-- Storing bytes stores them. -/
theorem Memory.read_writeBytes_inside {m m' : Memory} {a i : Nat} {bs : List Byte}
    (h : Memory.writeBytes m a bs = some m') (hi : i < bs.length) : Memory.read m' (a + i) = some bs[i] := by
  induction bs generalizing m a i with
  | nil => simp at hi
  | cons b bs ih =>
    simp only [Memory.writeBytes] at h
    split at h
    · cases h
    · rename_i m1 h1
      cases i with
      | zero =>
        rw [Nat.add_zero, Memory.read_writeBytes_outside h (by omega), Memory.read_write_same h1]
        rfl
      | succ i =>
        have := ih h (i := i) (by simpa using hi)
        rw [show a + (i + 1) = a + 1 + i by omega, this]
        rfl

/-- Reading `n` bytes gives `n` bytes. -/
theorem Memory.readBytes_length {m : Memory} {a n : Nat} {bs : List Byte} (h : Memory.readBytes m a n = some bs) :
    bs.length = n := by
  induction n generalizing a bs with
  | zero => simp only [Memory.readBytes, Option.some.injEq] at h; simp [← h]
  | succ n ih =>
    simp only [Memory.readBytes] at h
    split at h
    · cases h
    · obtain ⟨bs', h', rfl⟩ := Option.map_eq_some_iff.mp h
      simp [ih h']

/-- Reading bytes succeeds where cells stand. -/
theorem Memory.readBytes_exists {m : Memory} {a n : Nat} (h : ∀ i, i < n → a + i ∈ m.map Prod.fst) :
    ∃ bs, Memory.readBytes m a n = some bs := by
  induction n generalizing a with
  | zero => exact ⟨[], rfl⟩
  | succ n ih =>
    obtain ⟨b, hb⟩ := (Memory.read_isSome_iff m a).mpr (by simpa using h 0 (by omega))
    obtain ⟨bs, hbs⟩ := ih (a := a + 1) (fun i hi => by
      have := h (i + 1) (by omega)
      rwa [show a + 1 + i = a + (i + 1) by omega])
    exact ⟨b :: bs, by simp only [Memory.readBytes, hb, hbs, Option.map_some]⟩

/-- Bytes read are the bytes that stand there. -/
theorem Memory.readBytes_get {m : Memory} {a n i : Nat} {bs : List Byte} (h : Memory.readBytes m a n = some bs)
    (hi : i < bs.length) : Memory.read m (a + i) = some bs[i] := by
  induction n generalizing a bs i with
  | zero => simp only [Memory.readBytes, Option.some.injEq] at h; subst h; simp at hi
  | succ n ih =>
    simp only [Memory.readBytes] at h
    split at h
    · cases h
    · rename_i b hb
      obtain ⟨bs', h', rfl⟩ := Option.map_eq_some_iff.mp h
      cases i with
      | zero => simpa using hb
      | succ i =>
        have := ih h' (i := i) (by simpa using hi)
        rw [show a + (i + 1) = a + 1 + i by omega, this]
        rfl

/-- A run of cells has consecutive addresses. -/
theorem Memory.cells_addrs (a : Nat) (bs : List Byte) :
    (Memory.cells a bs).map Prod.fst = (List.range bs.length).map (fun i => a + i) := by
  induction bs generalizing a with
  | nil => rfl
  | cons b bs ih =>
    simp only [Memory.cells, List.map_cons, ih, List.length_cons, List.range_succ_eq_map, List.map_map]
    refine congrArg₂ _ rfl (List.map_congr_left ?_)
    intro i _
    simp only [Function.comp]
    omega

/-- The addresses of the bounce region rise strictly. -/
theorem bounceAddrs_sorted (p : Params) : (bounceAddrs p).Pairwise (· < ·) := by
  unfold bounceAddrs
  refine List.Pairwise.map _ ?_ List.pairwise_lt_range
  intro a b h
  omega

/-- An address is in the bounce region exactly when it is one of its bytes. -/
theorem mem_bounceAddrs (p : Params) (a : Nat) :
    a ∈ bounceAddrs p ↔ p.bounceBase ≤ a ∧ a < p.bounceBase + bounceSize p := by
  simp only [bounceAddrs, List.mem_map, List.mem_range]
  constructor
  · rintro ⟨i, hi, rfl⟩
    omega
  · rintro ⟨h1, h2⟩
    exact ⟨a - p.bounceBase, by omega, by omega⟩

/-- A sound state's memory is in canonical form. -/
theorem Inv.memory_wf {s : State} (h : Inv s) : Memory.wf s.bounce := by
  unfold Memory.wf
  rw [h.bounce]
  split
  · exact bounceAddrs_sorted _
  · exact List.Pairwise.nil

/-- Reset memory is in canonical form. -/
theorem reset_memory_wf (p : Params) : Memory.wf (State.resetWith p).bounce := List.Pairwise.nil

/-- A segment below N_SEG lies in the bounce region (R82). -/
theorem inBounce_segAddr (p : Params) (k : Nat) (h : k < p.nSeg) : inBounce p (segAddr p k) p.unit = true := by
  have : k * p.unit + p.unit ≤ p.nSeg * p.unit := by
    rw [← Nat.succ_mul]
    exact Nat.mul_le_mul_right _ h
  rw [inBounce, Bool.and_eq_true, decide_eq_true_eq, decide_eq_true_eq]
  simp only [segAddr, bounceSize]
  omega

/-- In an open sound state every segment can be read (R82). -/
theorem memRead_segment {s : State} (hm : s.bounce.map Prod.fst = bounceAddrs s.par) {k : Nat} (hk : k < s.par.nSeg) :
    ∃ bs, memRead s (segAddr s.par k) s.par.unit = some bs ∧ bs.length = s.par.unit := by
  have hin := inBounce_segAddr s.par k hk
  obtain ⟨bs, hbs⟩ := Memory.readBytes_exists (m := s.bounce) (a := segAddr s.par k) (n := s.par.unit) (by
    intro i hi
    rw [hm, mem_bounceAddrs]
    simp only [inBounce, Bool.and_eq_true, decide_eq_true_eq] at hin
    omega)
  exact ⟨bs, by simp only [memRead, hin, if_true, hbs], Memory.readBytes_length hbs⟩

/-- In an open sound state every segment can be written (R82). -/
theorem memWrite_segment {s : State} (hm : s.bounce.map Prod.fst = bounceAddrs s.par) {k : Nat} (hk : k < s.par.nSeg)
    {v : List Byte} (hv : v.length = s.par.unit) :
    ∃ m, memWrite s (segAddr s.par k) v = some { s with bounce := m } ∧ m.map Prod.fst = s.bounce.map Prod.fst ∧
      Memory.writeBytes s.bounce (segAddr s.par k) v = some m := by
  have hin := inBounce_segAddr s.par k hk
  obtain ⟨m, h⟩ := Memory.writeBytes_exists (m := s.bounce) (a := segAddr s.par k) (bs := v) (by
    intro i hi
    rw [hm, mem_bounceAddrs]
    simp only [inBounce, Bool.and_eq_true, decide_eq_true_eq] at hin
    omega)
  exact ⟨m, by simp only [memWrite, hv, hin, if_true, h, Option.map_some], Memory.writeBytes_addrs h, h⟩

/-- What a memory write can do (R82): only `bounce` changes, its addresses stay, and outside the stored bytes every address reads as before. -/
theorem memWrite_cases {s s' : State} {a : Nat} {v : List Byte} (h : memWrite s a v = some s') :
    ∃ m, Memory.writeBytes s.bounce a v = some m ∧ s' = { s with bounce := m } := by
  simp only [memWrite] at h
  split at h
  · obtain ⟨m, hm, rfl⟩ := Option.map_eq_some_iff.mp h
    exact ⟨m, hm, rfl⟩
  · cases h

end Sys2Proof.Machine
end

