-- ==== Sys2Proof/Laws/Queue.lean ====
section
/-! SUPPORT. The laws of the stream queues: every primitive keeps a queue sound (43_stream_queues.md R231). -/

namespace Sys2Proof.Machine

@[simp] theorem ringWrite_length (cap : Nat) (store : List Byte) (pos : Nat) (bs : List Byte) :
    (ringWrite cap store pos bs).length = store.length := by
  induction bs generalizing store pos with
  | nil => rfl
  | cons b bs ih => simp [ringWrite, ih]

@[simp] theorem ringRead_length (cap : Nat) (store : List Byte) (pos k : Nat) : (ringRead cap store pos k).length = k := by
  simp [ringRead]

@[simp] theorem contents_length (cap : Nat) (q : Queue) : (contents cap q).length = q.count := by
  simp [contents]

@[simp] theorem popBytes_length (cap : Nat) (q : Queue) (m : Nat) : (popBytes cap q m).length = min m q.count := by
  simp [popBytes]

@[simp] theorem nextBytes_length (n : Nat) (e : Env) : (nextBytes n e).length = n := by
  simp [nextBytes]

@[simp] theorem queueReset_count (q : Queue) : (queueReset q).count = 0 := rfl

@[simp] theorem queueDropAll_count (q : Queue) : (queueDropAll q).count = 0 := rfl

@[simp] theorem queuePush_count (cap : Nat) (q : Queue) (b : List Byte) :
    (queuePush cap q b).count = q.count + pushCount cap q b.length := rfl

@[simp] theorem queuePop_count (cap : Nat) (q : Queue) (m : Nat) : (queuePop cap q m).count = q.count - min m q.count := rfl

/-- A closed device's queue is sound at capacity 0. -/
theorem QueueOk.closed : QueueOk 0 Queue.closed where
  store := rfl
  count := Nat.le_refl _
  rd := fun h => absurd h (Nat.lt_irrefl _)
  wr := fun h => absurd h (Nat.lt_irrefl _)

/-- The queue OPEN creates is sound. -/
theorem QueueOk.new (cap : Nat) : QueueOk cap (queueNew cap) where
  store := by simp [queueNew]
  count := Nat.zero_le _
  rd := fun h => h
  wr := fun _ => by simp [queueNew]

/-- QueuePush keeps a queue sound (R233). -/
theorem QueueOk.push {cap : Nat} {q : Queue} (h : QueueOk cap q) (b : List Byte) : QueueOk cap (queuePush cap q b) where
  store := by simp [queuePush, h.store]
  count := by have := h.count; simp only [queuePush_count, pushCount]; omega
  rd := h.rd
  wr := fun hc => by
    simp only [queuePush, h.wr hc, Nat.mod_add_mod, Nat.add_assoc]

/-- QueuePop keeps a queue sound (R234). -/
theorem QueueOk.pop {cap : Nat} {q : Queue} (h : QueueOk cap q) (m : Nat) : QueueOk cap (queuePop cap q m) where
  store := h.store
  count := by have := h.count; simp only [queuePop_count]; omega
  rd := fun hc => Nat.mod_lt _ hc
  wr := fun hc => by
    simp only [queuePop, h.wr hc, Nat.mod_add_mod]
    congr 1
    omega

/-- QueueReset keeps a queue sound (R235). -/
theorem QueueOk.reset {cap : Nat} {q : Queue} (h : QueueOk cap q) : QueueOk cap (queueReset q) where
  store := h.store
  count := Nat.zero_le _
  rd := fun hc => hc
  wr := fun hc => by simp [queueReset]

/-- QueueDropAll keeps a queue sound (R236). -/
theorem QueueOk.dropAll {cap : Nat} {q : Queue} (h : QueueOk cap q) : QueueOk cap (queueDropAll q) where
  store := h.store
  count := Nat.zero_le _
  rd := fun hc => by simp only [queueDropAll, h.wr hc]; exact Nat.mod_lt _ hc
  wr := fun hc => by
    simp only [queueDropAll, h.wr hc, Nat.add_zero, Nat.mod_mod]

end Sys2Proof.Machine
end

