-- ==== Sys2Proof/Laws/Ops.lean ====
section
/-! SUPPORT. One lemma per shared operation that says everything it can do: draws, StartTransfer, StopTransfer, the DMA segment step, the completions, the blocked READ, the step. -/

namespace Sys2Proof.Machine

/-! ## Draws -/

/-- A settled bit is the next draw. -/
theorem nextBit_settled (e : Env) (b : Bool) (bs : List Bool) (h : e.bits = b :: bs) : nextBit e = b := by
  simp [nextBit, h]

/-- PollActive succeeds exactly when one of the first `budget` samples reads the wanted value (R172). -/
theorem pollFor_zero (v : Bool) (e : Env) : pollFor v 0 e = (false, e) := rfl

theorem pollFor_hit (v : Bool) (n : Nat) (e : Env) (h : nextBit e = v) : pollFor v (n + 1) e = (true, dropBit e) := by
  simp [pollFor, h]

theorem pollFor_miss (v : Bool) (n : Nat) (e : Env) (h : nextBit e ≠ v) : pollFor v (n + 1) e = pollFor v n (dropBit e) := by
  simp [pollFor, h]

/-! ## The transfer -/

/-- StartTransfer ends in one of three ways (R170, R171). -/
theorem startTransfer_cases (d : Dir) (s : State) :
    (startResult s = .ok ∧
        startTransfer d s = { startPrepare d s with xferDir := d, env := dropBit (startPoll s).2 }) ∨
      (startResult s = .transferSetupFailed ∧
        startTransfer d s = periphDefaults { startPrepare d s with env := dropBit (startPoll s).2 }) ∨
      (startResult s = .deviceBusy ∧
        startTransfer d s = periphDefaults { startPrepare d s with env := (startPoll s).2 }) := by
  unfold startResult startTransfer
  split
  · split
    · exact .inl ⟨rfl, rfl⟩
    · exact .inr (.inl ⟨rfl, rfl⟩)
  · exact .inr (.inr ⟨rfl, rfl⟩)

/-- A start that succeeds: the transfer runs and the peripheral is enabled in its direction with L segments (R170). -/
theorem startTransfer_ok {d : Dir} {s : State} (h : startResult s = .ok) :
    (startTransfer d s).xferDir = d ∧ (startTransfer d s).periphEn = true ∧ (startTransfer d s).periphDir = d ∧
      (startTransfer d s).xferRemaining = s.par.xferLen := by
  rcases startTransfer_cases d s with e | e | e
  · simp [e.2]
  · rw [e.1] at h; cases h
  · rw [e.1] at h; cases h

/-- A start that fails: no new transfer, the peripheral in its default configuration (R171). -/
theorem startTransfer_failed {d : Dir} {s : State} (h : startResult s ≠ .ok) :
    (startTransfer d s).xferDir = s.xferDir ∧ (startTransfer d s).periphEn = false ∧ (startTransfer d s).periphDir = .none ∧
      (startTransfer d s).xferRemaining = 0 := by
  rcases startTransfer_cases d s with e | e | e
  · exact absurd e.1 h
  · simp [e.2]
  · simp [e.2]

/-- Everything SET_MODE can do (R150, R157). -/
theorem setMode_cases (m : Mode) (s : State) :
    (s.isOpen = false ∧ setMode m s = raise .ctl .notOpen s) ∨
      (s.isOpen = true ∧ m = s.mode ∧ setMode m s = done .ctl 0 s) ∨
      (s.isOpen = true ∧ m ≠ s.mode ∧ stopQuiesced s = false ∧
        setMode m s = raise .ctl .deviceBusy (deviceBusyOutcome (stopTransfer s))) ∨
      (s.isOpen = true ∧ m ≠ s.mode ∧ stopQuiesced s = true ∧ m = .idle ∧
        setMode m s = done .ctl 0 (enterIdle (stopTransfer s))) ∨
      (s.isOpen = true ∧ m ≠ s.mode ∧ stopQuiesced s = true ∧ m = .tx ∧
        setMode m s = done .ctl 0 (enterTransmit (configureSelector .tx (enterIdle (stopTransfer s))))) ∨
      (s.isOpen = true ∧ m ≠ s.mode ∧ stopQuiesced s = true ∧ (m = .rx0 ∨ m = .rx1) ∧ startResult (stopTransfer s) = .ok ∧
        setMode m s = done .ctl 0 { startTransfer .devToMem (configureSelector m (enterIdle (stopTransfer s))) with mode := m }) ∨
      (s.isOpen = true ∧ m ≠ s.mode ∧ stopQuiesced s = true ∧ (m = .rx0 ∨ m = .rx1) ∧ startResult (stopTransfer s) ≠ .ok ∧
        setMode m s = raise .ctl (startResult (stopTransfer s))
          (enterIdle (startTransfer .devToMem (configureSelector m (enterIdle (stopTransfer s)))))) := by
  have hr : ∀ m', startResult (configureSelector m' (enterIdle (stopTransfer s))) = startResult (stopTransfer s) := fun _ => rfl
  cases ho : s.isOpen
  · exact .inl ⟨rfl, by simp [setMode, ho]⟩
  · by_cases hm : m = s.mode
    · exact .inr (.inl ⟨rfl, hm, by simp [setMode, ho, hm]⟩)
    · cases hq : stopQuiesced s
      · exact .inr (.inr (.inl ⟨rfl, hm, rfl, by simp [setMode, ho, hm, hq]⟩))
      · have e : setMode m s = modeAfterStop m (stopTransfer s) := by simp [setMode, ho, hm, hq]
        have rx : m = .rx0 ∨ m = .rx1 → setMode m s = enterReceive m (configureSelector m (enterIdle (stopTransfer s))) := by
          rintro (rfl | rfl) <;> exact e
        by_cases hi : m = .idle
        · exact .inr (.inr (.inr (.inl ⟨rfl, hm, rfl, hi, by rw [e, hi]; rfl⟩)))
        · by_cases ht : m = .tx
          · exact .inr (.inr (.inr (.inr (.inl ⟨rfl, hm, rfl, ht, by rw [e, ht]; rfl⟩))))
          · have hx : m = .rx0 ∨ m = .rx1 := by cases m <;> simp_all
            by_cases hs : startResult (stopTransfer s) = .ok
            · exact .inr (.inr (.inr (.inr (.inr (.inl ⟨rfl, hm, rfl, hx, hs, by
                rw [rx hx, enterReceive, hr, if_pos hs]⟩)))))
            · exact .inr (.inr (.inr (.inr (.inr (.inr ⟨rfl, hm, rfl, hx, hs, by
                rw [rx hx, enterReceive, hr, if_neg hs]⟩)))))

/-- Everything WRITE can do on an open device, its push being done (R284, R286). -/
theorem writeFinish_cases (k : Word) (s : State) :
    (lazyStartDue s = false ∧ writeFinish k s = done .wr k s) ∨
      (lazyStartDue s = true ∧ startResult s = .ok ∧ writeFinish k s = done .wr k (startTransfer .memToDev s)) ∨
      (lazyStartDue s = true ∧ startResult s ≠ .ok ∧
        writeFinish k s = respond .wr (startResult s) k [] (enterIdle (startTransfer .memToDev s))) := by
  unfold writeFinish
  cases hl : lazyStartDue s
  · exact .inl ⟨rfl, rfl⟩
  · by_cases hs : startResult s = .ok
    · exact .inr (.inl ⟨rfl, hs, by simp [hs]⟩)
    · exact .inr (.inr ⟨rfl, hs, by simp [hs]⟩)

/-- A DMA segment step that answers a next state (R180): nothing if it is not enabled, else one segment moved in the transfer's direction. -/
theorem dmaSegment_cases {s t : State} (h : dmaSegment s = .next t) :
    (dmaEnabled s = false ∧ t = s) ∨
      (dmaEnabled s = true ∧ s.xferDir = .devToMem ∧
        ∃ m, Memory.writeBytes s.bounce (segAddr s.par s.hwIdx) (nextBytes s.par.unit s.env) = some m ∧
          t = segmentPosted { s with bounce := m, env := dropBytes s.par.unit s.env }) ∨
      (dmaEnabled s = true ∧ s.xferDir = .memToDev ∧
        ∃ bs, memRead s (segAddr s.par s.hwIdx) s.par.unit = some bs ∧
          t = segmentPosted { s with txWire := s.txWire ++ bs }) := by
  unfold dmaSegment at h
  split at h
  · rename_i he
    split at h
    · rename_i hd
      unfold dmaReceive at h
      split at h
      · cases h
      · rename_i s' hs
        cases h
        obtain ⟨m, hm, rfl⟩ := memWrite_cases hs
        exact .inr (.inl ⟨he, hd, m, hm, rfl⟩)
    · rename_i hd
      unfold dmaTransmit at h
      split at h
      · cases h
      · rename_i bs hb
        cases h
        refine .inr (.inr ⟨he, ?_, bs, hb, rfl⟩)
        have hn : s.xferDir ≠ .none := by
          intro e
          simp [dmaEnabled, e] at he
        cases hx : s.xferDir <;> simp_all
  · rename_i he
    cases h
    exact .inl ⟨by simpa using he, rfl⟩

/-- An RX completion that answers a next state (R202, R203). -/
theorem rxComplete_cases {s t : State} (h : rxComplete s = .next t) :
    (contended s = false ∧ rxHasRoom s = true ∧
        ∃ bs, memRead s (segAddr s.par (rxSegment s)) s.par.unit = some bs ∧
          t = rxFinish { contentionDrawn (reArm s) with rx := queuePush s.cap s.rx bs }) ∨
      ((contended s = true ∨ rxHasRoom s = false) ∧ t = rxFinish (countDrop (contentionDrawn (reArm s)))) := by
  unfold rxComplete at h
  split at h
  · rename_i hc
    simp only [Bool.and_eq_true, Bool.not_eq_true'] at hc
    have e1 : memRead (contentionDrawn (reArm s)) (segAddr (contentionDrawn (reArm s)).par
        (rxSegment (contentionDrawn (reArm s)))) (contentionDrawn (reArm s)).par.unit
        = memRead s (segAddr s.par (rxSegment s)) s.par.unit := by
      unfold contentionDrawn
      split <;> rfl
    have e2 : (contentionDrawn (reArm s)).cap = s.cap ∧ (contentionDrawn (reArm s)).rx = s.rx := by
      unfold contentionDrawn
      split <;> exact ⟨rfl, rfl⟩
    unfold rxMove at h
    rw [e1] at h
    split at h
    · cases h
    · rename_i bs hb
      cases h
      exact .inl ⟨hc.1, hc.2, bs, hb, by simp only [e2.1, e2.2]⟩
  · rename_i hc
    cases h
    refine .inr ⟨?_, rfl⟩
    cases h1 : contended s <;> cases h2 : rxHasRoom s <;> simp_all

/-- A TX completion that answers a next state (R205, R206): the restart check first, then a unit moved or a drop. -/
theorem txComplete_cases {s t : State} (h : txComplete s = .next t) :
    (contended (txRestartCheck s) = false ∧ txHasUnit s = true ∧
        ∃ m, Memory.writeBytes s.bounce (segAddr s.par (txSegment s)) (popBytes s.cap s.tx s.par.unit) = some m ∧
          t = txFinish { contentionDrawn (txRestartCheck s) with bounce := m, tx := queuePop s.cap s.tx s.par.unit }) ∨
      ((contended (txRestartCheck s) = true ∨ txHasUnit s = false) ∧
        t = txFinish (countDrop (contentionDrawn (txRestartCheck s)))) := by
  unfold txComplete at h
  split at h
  · rename_i hc
    simp only [Bool.and_eq_true, Bool.not_eq_true'] at hc
    generalize hu : contentionDrawn (txRestartCheck s) = u at h
    have e : u.par = s.par ∧ u.cap = s.cap ∧ u.tx = s.tx ∧ u.bounce = s.bounce ∧ u.completed = s.completed := by
      rw [← hu]
      unfold contentionDrawn txRestartCheck
      split <;> split <;> exact ⟨rfl, rfl, rfl, rfl, rfl⟩
    unfold txMove at h
    split at h
    · cases h
    · rename_i s' hs
      cases h
      obtain ⟨m, hm, rfl⟩ := memWrite_cases hs
      refine .inl ⟨hc.1, hc.2, m, ?_, ?_⟩
      · rw [← hm]
        simp only [txSegment, e.1, e.2.1, e.2.2.1, e.2.2.2.1, e.2.2.2.2]
      · simp only [e.1, e.2.1, e.2.2.1]
  · rename_i hc
    cases h
    refine .inr ⟨?_, rfl⟩
    cases h1 : contended (txRestartCheck s) <;> cases h2 : txHasUnit s <;> simp_all

/-- The contention draw changes only the draws left. -/
theorem contentionDrawn_eq (s : State) : contentionDrawn s = { s with env := (contentionDrawn s).env } := by
  unfold contentionDrawn
  split <;> rfl

/-- The restart check changes only the peripheral's registers and the draws left (R188). -/
theorem txRestartCheck_eq (s : State) :
    txRestartCheck s = { s with env := (txRestartCheck s).env, periphEn := (txRestartCheck s).periphEn, periphDir := (txRestartCheck s).periphDir, xferRemaining := (txRestartCheck s).xferRemaining } := by
  unfold txRestartCheck
  split <;> rfl

/-- Ending a blocked READ changes only `rd_blocked` and the RD port's responses (R266, R302). -/
theorem interruptRead_eq (s : State) :
    interruptRead s = { s with rdBlocked := none, ports := (interruptRead s).ports } := by
  unfold interruptRead
  cases h : s.rdBlocked with
  | none => simp only; rw [← h]
  | some n => rfl

/-- The step of a legal parameter set is the chosen agent's step (R11, R345). -/
theorem step_legal {s : State} (h : paramsLegal s.par = true) :
    step s = runAgent (nextAgent s.env) (turnTaken s) := by
  simp [step, stepBlock, h]

/-- A parameter set that fails R10 is refused. -/
theorem step_illegal {s : State} (h : paramsLegal s.par = false) : step s = .refused .parameterSet := by
  simp [step, stepBlock, h]

/-- What a port's step can do (R31, R116, R120). -/
theorem runPort_cases (p : Port) (s : State) :
    runPort p s = .next s ∨ (∃ rest, runPort p s = .next (answerIllegal p (setInput p rest s))) ∨
      ∃ i rest, decodeBytes p (s.ports.input p) = .instr i rest ∧ runPort p s = exec i (setInput p rest s) := by
  unfold runPort
  split
  · exact .inl rfl
  · rename_i rest _
    exact .inr (.inl ⟨rest, rfl⟩)
  · rename_i i rest h
    exact .inr (.inr ⟨i, rest, h, rfl⟩)

/-- Everything a step that answers a next state can be, `u` being the state once the turn is taken (R11): nothing, an illegal word answered, the command of a port, an event, a READ_WAKE, a segment step. -/
theorem step_cases {s t : State} (h : step s = .next t) :
    ∃ u, u = turnTaken s ∧
      (t = u ∨ (∃ p rest, t = answerIllegal p (setInput p rest u)) ∨
        (∃ i p rest, decodeBytes p (u.ports.input p) = .instr i rest ∧ (p = .rd → u.rdBlocked = none) ∧
          exec i (setInput p rest u) = .next t) ∨
        (∃ i, (i = .cancel ∨ i = .segDone ∨ i = .refreshTick) ∧ exec i u = .next t) ∨
        (∃ n, u.rdBlocked = some n ∧ t = readWake n u) ∨ dmaSegment u = .next t) := by
  cases hp : paramsLegal s.par
  · rw [step_illegal hp] at h
    cases h
  rw [step_legal hp] at h
  refine ⟨turnTaken s, rfl, ?_⟩
  generalize turnTaken s = u at h
  have port (p : Port) (hb : p = .rd → u.rdBlocked = none) (h : runPort p u = .next t) :
      t = u ∨ (∃ p rest, t = answerIllegal p (setInput p rest u)) ∨
        ∃ i p rest, decodeBytes p (u.ports.input p) = .instr i rest ∧ (p = .rd → u.rdBlocked = none) ∧
          exec i (setInput p rest u) = .next t := by
    rcases runPort_cases p u with e | ⟨rest, e⟩ | ⟨i, rest, hd, e⟩
    · rw [e] at h
      cases h
      exact .inl rfl
    · rw [e] at h
      cases h
      exact .inr (.inl ⟨p, rest, rfl⟩)
    · exact .inr (.inr ⟨i, p, rest, hd, hb, e ▸ h⟩)
  cases hg : nextAgent s.env <;> rw [hg] at h <;> simp only [runAgent] at h
  · exact (port .ctl (by simp) h).imp_right (fun e => e.imp_right Or.inl)
  · unfold runRd at h
    split at h
    · rename_i hb
      exact (port .rd (fun _ => hb) h).imp_right (fun e => e.imp_right Or.inl)
    · rename_i n hb
      cases h
      exact .inr (.inr (.inr (.inr (.inl ⟨n, hb, rfl⟩))))
  · exact (port .wr (by simp) h).imp_right (fun e => e.imp_right Or.inl)
  · exact .inr (.inr (.inr (.inl ⟨_, .inl rfl, h⟩)))
  · exact .inr (.inr (.inr (.inr (.inr h))))
  · exact .inr (.inr (.inr (.inl ⟨_, .inr (.inl rfl), h⟩)))
  · exact .inr (.inr (.inr (.inl ⟨_, .inr (.inr rfl), h⟩)))
  · exact (port .evt (by simp) h).imp_right (fun e => e.imp_right Or.inl)

/-! ## The invariants -/

/-- The invariants rest on no draw, port, counter, flag, pulse, wire byte, peripheral direction or remaining count. -/
theorem Inv.keep {s : State} (h : Inv s) (env : Env) (ports : Ports) (completed dropped : Word)
    (readable writeable deadlineMiss : Bool) (notifyCount : Nat) (txWire : List Byte) (periphDir : Dir)
    (xferRemaining : Nat) :
    Inv { s with
      env := env, ports := ports, completed := completed, dropped := dropped, readable := readable,
      writeable := writeable, deadlineMiss := deadlineMiss, notifyCount := notifyCount, txWire := txWire,
      periphDir := periphDir, xferRemaining := xferRemaining } where
  params := h.params
  closed := fun e => ⟨(h.closed e).mode, (h.closed e).xferDir, (h.closed e).cap, (h.closed e).rx, (h.closed e).tx,
    (h.closed e).pending, (h.closed e).rdBlocked, (h.closed e).sel, (h.closed e).periphEn⟩
  capacity := h.capacity
  rx := h.rx
  tx := h.tx
  devToMem := h.devToMem
  memToDev := h.memToDev
  noPending := h.noPending
  selector := h.selector
  blocked := h.blocked
  bounce := h.bounce
  hwIdx := h.hwIdx
  mult := h.mult
  offsets := h.offsets

end Sys2Proof.Machine
end

