-- ==== Sys2Proof/Laws/PerInstr.lean ====
section
/-! SUPPORT. What holds of every instruction as syntax: its command word is legal on its own port (30_encoding.md R115, R119). -/

namespace Sys2Proof.Laws.LegalWord

/-- The instruction's word has an assigned opcode, legal on the instruction's port, with its format's reserved bits zero. -/
def Statement (i : Instr) : Prop :=
  ∃ o, opcodeOf (opField (encodeWord i)) = some o ∧ o.port = i.port ∧ encodeWord i &&& o.format.reserved = 0

/-- An opcode over an argument that fits its format is a legal word. -/
theorem of_commandWord (i : Instr) (o : Opcode) (arg : Nat) (hw : encodeWord i = commandWord o arg) (hp : o.port = i.port)
    (ha : arg < 2 ^ 24) (hr : BitVec.ofNat 32 arg &&& o.format.reserved = 0) : Statement i := by
  refine ⟨o, ?_, hp, ?_⟩
  · rw [hw]
    exact opcodeOf_commandWord o arg ha
  · rw [hw]
    exact commandWord_reserved o arg ha hr

/-- A number below 256 sets none of the bits above bit 7. -/
theorem eightBits (v : BitVec 8) : BitVec.ofNat 32 v.toNat &&& 0x00FFFF00 = 0 := by
  revert v
  decide

/-- The pair of offset fields sets none of the bits above bit 7. -/
theorem offsetBits (x y : BitVec 4) : BitVec.ofNat 32 (y.toNat * 16 + x.toNat) &&& 0x00FFFF00 = 0 := by
  revert x y
  decide

theorem openDev : Statement .openDev := of_commandWord _ .openDev 0 rfl rfl (by decide) (by decide)

theorem closeDev : Statement .closeDev := of_commandWord _ .closeDev 0 rfl rfl (by decide) (by decide)

theorem getMode : Statement .getMode := of_commandWord _ .getMode 0 rfl rfl (by decide) (by decide)

theorem setMode (m : Mode) : Statement (.setMode m) :=
  of_commandWord _ .setMode m.code rfl rfl (by cases m <;> decide) (by cases m <;> decide)

theorem getUnit : Statement .getUnit := of_commandWord _ .getUnit 0 rfl rfl (by decide) (by decide)

theorem getMult : Statement .getMult := of_commandWord _ .getMult 0 rfl rfl (by decide) (by decide)

theorem setMult (v : BitVec 8) : Statement (.setMult v) :=
  of_commandWord _ .setMult v.toNat rfl rfl (Nat.lt_of_lt_of_le v.isLt (by decide)) (eightBits v)

theorem getOffs : Statement .getOffs := of_commandWord _ .getOffs 0 rfl rfl (by decide) (by decide)

theorem setOffs (a b : Int) : Statement (.setOffs a b) := by
  have ha := (bits4 a).isLt
  have hb := (bits4 b).isLt
  exact of_commandWord _ .setOffs ((bits4 b).toNat * 16 + (bits4 a).toNat) rfl rfl (by omega) (offsetBits _ _)

theorem poll : Statement .poll := of_commandWord _ .poll 0 rfl rfl (by decide) (by decide)

theorem getStat (i : BitVec 4) : Statement (.getStat i) := by
  refine of_commandWord _ .getStat i.toNat rfl rfl (Nat.lt_of_lt_of_le i.isLt (by decide)) ?_
  revert i
  decide

theorem read (nb : Bool) (n : Word) : Statement (.read nb n) :=
  of_commandWord _ .read nb.toNat rfl rfl (by cases nb <;> decide) (by cases nb <;> decide)

theorem write (data : List Byte) : Statement (.write data) := of_commandWord _ .write 0 rfl rfl (by decide) (by decide)

theorem flush : Statement .flush := of_commandWord _ .write 1 rfl rfl (by decide) (by decide)

theorem segDone : Statement .segDone := of_commandWord _ .segDone 0 rfl rfl (by decide) (by decide)

theorem refreshTick : Statement .refreshTick := of_commandWord _ .refreshTick 0 rfl rfl (by decide) (by decide)

theorem cancel : Statement .cancel := of_commandWord _ .cancel 0 rfl rfl (by decide) (by decide)

end Sys2Proof.Laws.LegalWord
end

