-- ==== Sys2Proof/Laws/Selector.lean ====
section
/-! SUPPORT. The laws of the parameters SELECTOR and SEL_HIZ. -/

namespace Sys2Proof.Machine

theorem mem_offsRange {x : Int} : x ∈ offsRange ↔ -1 ≤ x ∧ x ≤ 4 := by
  simp only [offsRange, List.mem_cons, List.not_mem_nil, or_false]; omega

theorem mem_selectorArgs {m : Mode} {a b : Int} :
    (m, a, b) ∈ selectorArgs ↔ m ≠ .idle ∧ a ∈ offsRange ∧ b ∈ offsRange := by
  cases m <;> simp [selectorArgs]

theorem lookup_map_pair {α β : Type} [BEq α] [LawfulBEq α] [DecidableEq α] (g : α → β) (l : List α) {k : α} (h : k ∈ l) :
    (l.map (fun x => (x, g x))).lookup k = some (g k) := by
  induction l with
  | nil => cases h
  | cons x l ih =>
    by_cases e : k = x
    · subst e; simp
    · rw [List.map_cons, List.lookup_cons, beq_eq_false_iff_ne.mpr e]
      exact ih ((List.mem_cons.mp h).resolve_left e)

/-- A parameter set given SELECTOR as the table of `f` has the values of `f` at every argument. -/
theorem selectorValue_table {p : Params} {f : Mode → Int → Int → SelectorValue} (h : p.selector = selectorTable f)
    {m : Mode} {a b : Int} (hm : (m, a, b) ∈ selectorArgs) : selectorValue p m a b = f m a b := by
  rw [selectorValue, h, selectorTable, lookup_map_pair (fun x : Mode × Int × Int => f x.1 x.2.1 x.2.2) _ hm, Option.getD_some]

theorem hizDistinct_iff {p : Params} :
    hizDistinct p = true ↔ ∀ m a b, (m, a, b) ∈ selectorArgs → selectorValue p m a b ≠ p.selHiz := by
  simp only [hizDistinct, List.all_eq_true, decide_eq_true_eq, Prod.forall]

theorem offsInRange_iff {x : Int} : offsInRange x = true ↔ x ∈ offsRange := by
  rw [mem_offsRange, offsInRange, Bool.and_eq_true, decide_eq_true_eq, decide_eq_true_eq]

/-- In a legal parameter set no accepted pair of offsets drives SEL_HIZ in a non-idle mode (R8). -/
theorem selectorValue_ne_hiz {p : Params} (hp : paramsLegal p = true) {m : Mode} {a b : Int} (hm : m ≠ .idle)
    (h : offsetsAccepted p a b = true) : selectorValue p m a b ≠ p.selHiz := by
  have hd : hizDistinct p = true := by simp only [paramsLegal, decide_eq_true_eq] at hp; exact hp.2.2.2.2.2.2.2.2.2.2.2.2.2.2
  simp only [offsetsAccepted, Bool.and_eq_true] at h
  exact hizDistinct_iff.mp hd m a b (mem_selectorArgs.mpr ⟨hm, offsInRange_iff.mp h.1.1, offsInRange_iff.mp h.1.2⟩)

end Sys2Proof.Machine
end

