-- ==== Sys2Proof/Tests/Slice0.lean ====
section
/-! SUPPORT. Tests of one step each, expected results from 95_test_vectors.md and 30_encoding.md, the WellFormed smoke tests, and for every statement with hypotheses a witness that meets them. -/

namespace Sys2Proof.Tests

open Sys2Proof.Machine Sys2Proof.Claims

/-! ## Well-formedness -/

theorem test_wf_offset_too_high : (Instr.setOffs 8 0).wellFormed = false := by decide

theorem test_wf_offset_too_low : (Instr.setOffs 0 (-9)).wellFormed = false := by decide

theorem test_wf_offset_bounds : (Instr.setOffs (-8) 7).wellFormed = true := by decide

theorem test_wf_write_too_long : (Instr.write (List.replicate (2 ^ 32) 0)).wellFormed = false := by
  simp only [Instr.wellFormed, List.length_replicate]
  decide

/-! ## Decoding: words written out from R113, R115 and the vectors V-ENC -/

/-- R115. -/
theorem test_decode_open : decodeBytes .ctl [0x00, 0x00, 0x00, 0x01] = .instr (.openDev) [] := by decide

/-- R115. -/
theorem test_decode_close : decodeBytes .ctl [0x00, 0x00, 0x00, 0x02] = .instr (.closeDev) [] := by decide

/-- V-ENC-21. -/
theorem test_decode_get_mode : decodeBytes .ctl [0x00, 0x00, 0x00, 0x10] = .instr (.getMode) [] := by decide

/-- V-ENC-2. -/
theorem test_decode_set_mode_tx : decodeBytes .ctl [0x03, 0x00, 0x00, 0x11] = .instr (.setMode .tx) [] := by decide

/-- V-ENC-1. -/
theorem test_decode_set_mode_rx0 : decodeBytes .ctl [0x01, 0x00, 0x00, 0x11] = .instr (.setMode .rx0) [] := by decide

/-- V-CFG-1. -/
theorem test_decode_get_unit : decodeBytes .ctl [0x00, 0x00, 0x00, 0x12] = .instr (.getUnit) [] := by decide

/-- V-CFG-2. -/
theorem test_decode_get_mult : decodeBytes .ctl [0x00, 0x00, 0x00, 0x13] = .instr (.getMult) [] := by decide

/-- V-ENC-16. -/
theorem test_decode_set_mult : decodeBytes .ctl [0x04, 0x00, 0x00, 0x14] = .instr (.setMult 4) [] := by decide

/-- V-CFG-6. -/
theorem test_decode_get_offs : decodeBytes .ctl [0x00, 0x00, 0x00, 0x15] = .instr (.getOffs) [] := by decide

/-- V-ENC-13. -/
theorem test_decode_set_offs : decodeBytes .ctl [0x4F, 0x00, 0x00, 0x16] = .instr (.setOffs (-1) 4) [] := by decide

/-- V-ENC-12. -/
theorem test_decode_set_offs_order : decodeBytes .ctl [0x32, 0x00, 0x00, 0x16] = .instr (.setOffs 2 3) [] := by decide

/-- V-ENC-22. -/
theorem test_decode_poll : decodeBytes .ctl [0x00, 0x00, 0x00, 0x17] = .instr (.poll) [] := by decide

/-- V-ENC-17. -/
theorem test_decode_get_stat : decodeBytes .ctl [0x06, 0x00, 0x00, 0x18] = .instr (.getStat 6) [] := by decide

/-- V-ENC-4. -/
theorem test_decode_read : decodeBytes .rd [0x01, 0x00, 0x00, 0x20, 0x08, 0x00, 0x00, 0x00] = .instr (.read true 8) [] := by decide

/-- V-ENC-7. -/
theorem test_decode_write : decodeBytes .wr [0x00, 0x00, 0x00, 0x30, 0x04, 0x00, 0x00, 0x00, 0xDE, 0xAD, 0xBE, 0xEF] = .instr (.write [0xDE, 0xAD, 0xBE, 0xEF]) [] := by decide

/-- V-ENC-8. -/
theorem test_decode_flush : decodeBytes .wr [0x01, 0x00, 0x00, 0x30] = .instr (.flush) [] := by decide

/-- R115. -/
theorem test_decode_seg_done : decodeBytes .evt [0x00, 0x00, 0x00, 0x40] = .instr (.segDone) [] := by decide

/-- R115. -/
theorem test_decode_refresh_tick : decodeBytes .evt [0x00, 0x00, 0x00, 0x41] = .instr (.refreshTick) [] := by decide

/-- R115. -/
theorem test_decode_cancel : decodeBytes .evt [0x00, 0x00, 0x00, 0x42] = .instr (.cancel) [] := by decide

/-- V-ENC-3. -/
theorem test_illegal_mode_reserved_bit : decodeBytes .ctl [0x04, 0x00, 0x00, 0x11] = .illegal .reservedBits [] := by decide

/-- V-ENC-5: eight bytes consumed. -/
theorem test_illegal_read_reserved_bit : decodeBytes .rd [0x02, 0x00, 0x00, 0x20, 0x08, 0x00, 0x00, 0x00] = .illegal .reservedBits [] := by decide

/-- V-ENC-6. -/
theorem test_illegal_wrong_port : decodeBytes .rd [0x01, 0x00, 0x00, 0x11] = .illegal .wrongPort [] := by decide

/-- V-ENC-9: twelve bytes consumed. -/
theorem test_illegal_write_reserved_bit : decodeBytes .wr [0x02, 0x00, 0x00, 0x30, 0x04, 0x00, 0x00, 0x00, 0x01, 0x02, 0x03, 0x04] = .illegal .reservedBits [] := by decide

/-- V-ENC-10. -/
theorem test_illegal_unassigned : decodeBytes .ctl [0x00, 0x00, 0x00, 0x00] = .illegal .unassignedOpcode [] := by decide

/-- V-ENC-11. -/
theorem test_illegal_custom : decodeBytes .ctl [0x00, 0x00, 0x00, 0xF0] = .illegal .customOpcode [] := by decide

/-- V-ENC-15. -/
theorem test_illegal_offs_reserved_bit : decodeBytes .ctl [0x00, 0x01, 0x00, 0x16] = .illegal .reservedBits [] := by decide

/-- V-ENC-19. -/
theorem test_illegal_stat_reserved_bit : decodeBytes .ctl [0x10, 0x00, 0x00, 0x18] = .illegal .reservedBits [] := by decide

/-- V-ENC-20. -/
theorem test_illegal_event_reserved_bit : decodeBytes .evt [0x01, 0x00, 0x00, 0x40] = .illegal .reservedBits [] := by decide

/-- A command that has not arrived whole is not decoded (R111, log 12). -/
theorem test_incomplete_write : decodeBytes .wr [0x00, 0x00, 0x00, 0x30, 0x04, 0x00, 0x00, 0x00, 0xDE] = .incomplete := by decide

theorem test_table_word_set_offs : decodeTableWord 32 0x1600004F = some (.setOffs (-1) 4) := by decide

theorem test_table_word_read : decodeTableWord 32 0x20000001 = some (.read true 0) := by decide

theorem test_table_word_write : decodeTableWord 64 0x30000000 = some (.write []) := by decide

theorem test_table_word_cancel : decodeTableWord 32 0x42000000 = some .cancel := by decide

/-! ## The states of the vectors -/

/-- `n` bytes counting up from `k`. -/
def counting (k n : Nat) : List Byte := (List.range n).map (fun i => BitVec.ofNat 8 (k + i))

/-- The segment `Gi` of 95_test_vectors.md section 1. -/
def segment (i : Nat) : List Byte := counting (4 * i) 4

/-- A queue of capacity 16 with contents `bs`, at cursor 0. -/
def queueOf (bs : List Byte) : Queue where
  store := bs ++ List.replicate (16 - bs.length) 0
  rd := 0
  wr := bs.length % 16
  count := bs.length

/-- OpenIdle under P0, its bounce bytes E0 to EF. -/
def openIdle : State := { State.reset with
  isOpen := true, cap := 16, rx := queueOf [], tx := queueOf [], bounce := Memory.cells 0x1000 (counting 0xE0 16) }

/-- Rx0Run. -/
def rxRun : State := { openIdle with
  mode := .rx0, sel := .select .rx0 0 1, xferDir := .devToMem, periphEn := true, periphDir := .devToMem, xferRemaining := 8 }

/-- Mode Tx, no transfer yet. -/
def txIdle : State := { openIdle with mode := .tx, sel := .select .tx 0 1, writeable := true, notifyCount := 1 }

/-- TxRun with bytes in the TX queue. -/
def txRun (bs : List Byte) : State := { txIdle with
  tx := queueOf bs, xferDir := .memToDev, periphEn := true, periphDir := .memToDev, xferRemaining := 8 }

/-- The state with one agent's turn next and these draws settled. -/
def turn (g : Agent) (bits : List Bool) (bytes : List Byte) (s : State) : State :=
  { s with env := { turns := [g], bits := bits, bytes := bytes, drawn := 0 } }

/-- The state with a command sent to its port, that port's turn next, and these draws settled. -/
def send (i : Instr) (bits : List Bool) (s : State) : State := turn (portAgent i.port) bits [] (setInput i.port (encode i) s)

/-- What an outcome shows of its next state. -/
def look {α : Type} (o : Host.Outcome State Fault Refusal) (f : State → α) : Option α :=
  match o with
  | .next t => some (f t)
  | .fault _ => none
  | .refused _ => none

/-- A response with no data. -/
def answers (st : Status) (v : Word) : List Response := [{ status := st, value := v, data := [] }]

/-! ## One step -/

/-- E1, V-CFG-5: OPEN with MULT 4 gives capacity 16; the bounce bytes are the drawn ones. -/
theorem test_open_initialises : look (step (turn .hostCtl [true] (counting 0xE0 16) (setInput .ctl [0x00, 0x00, 0x00, 0x01] State.reset))) (fun t => (t.isOpen, t.cap, t.rx.count, t.bounce == Memory.cells 0x1000 (counting 0xE0 16), t.ports.ctlOut)) = some (true, 16, 0, true, answers .ok 0) := by decide

/-- V-OC-1. -/
theorem test_open_exhausted : look (step (send .openDev [false] State.reset)) (fun t => (t.isOpen, t.ports.ctlOut)) = some (false, answers .resourceExhausted 0) := by decide

/-- V-OC-4: it closes although the peripheral did not quiesce. -/
theorem test_close_busy : look (step (send .closeDev [true, true, true] rxRun)) (fun t => ((t.isOpen, t.mode, t.cap), t.sel, t.bounce.length, t.ports.ctlOut)) = some ((false, .idle, 0), .hiz, 0, answers .deviceBusy 0) := by decide

/-- V-N-8. -/
theorem test_close_interrupts_read : look (step (send .closeDev [false] { openIdle with rdBlocked := some 4 })) (fun t => (t.isOpen, t.rdBlocked, t.ports.rdOut, t.ports.ctlOut)) = some (false, none, answers .interrupted 0, answers .ok 0) := by decide

/-- P4 line 3. -/
theorem test_get_mode : look (step (send .getMode [] rxRun)) (fun t => (t.ports.ctlOut, t.mode)) = some (answers .ok 1, .rx0) := by decide

/-- V-MODE-4. -/
theorem test_set_mode_rx0 : look (step (send (.setMode .rx0) [false, true, true] openIdle)) (fun t => ((t.mode, t.sel, t.xferDir, t.ports.ctlOut), t.periphEn, t.periphDir, t.xferRemaining)) = some ((.rx0, .select .rx0 0 1, .devToMem, answers .ok 0), true, .devToMem, 8) := by decide

/-- V-MODE-7: quiescence timeout, Keep. -/
theorem test_set_mode_busy : look (step (send (.setMode .idle) [true, true, true, true] { rxRun with pending := 1 })) (fun t => ((t.mode, t.sel, t.xferDir), t.pending, t.periphEn, t.ports.ctlOut)) = some ((.rx0, .select .rx0 0 1, .none), 0, false, answers .deviceBusy 0) := by decide

/-- V-CFG-1. -/
theorem test_get_unit : look (step (send .getUnit [] State.reset)) (fun t => t.ports.ctlOut) = some (answers .ok 4) := by decide

/-- V-CFG-2. -/
theorem test_get_mult : look (step (send .getMult [] State.reset)) (fun t => t.ports.ctlOut) = some (answers .ok 4) := by decide

/-- V-CFG-3. -/
theorem test_set_mult_highest : look (step (send (.setMult 32) [] State.reset)) (fun t => (t.cfgMult, t.ports.ctlOut)) = some (32, answers .ok 0) := by decide

/-- V-CFG-4. -/
theorem test_set_mult_refused : look (step (send (.setMult 33) [] State.reset)) (fun t => (t.cfgMult, t.ports.ctlOut)) = some (4, answers .invalidParameter 0) := by decide

/-- V-CFG-7: bits4(4) * 16 + bits4(-1). -/
theorem test_get_offs : look (step (send .getOffs [] { State.reset with cfgOffa := -1, cfgOffb := 4 })) (fun t => t.ports.ctlOut) = some (answers .ok 0x4F) := by decide

/-- V-CFG-7. -/
theorem test_set_offs : look (step (send (.setOffs (-1) 4) [] State.reset)) (fun t => (t.cfgOffa, t.cfgOffb, t.ports.ctlOut)) = some (-1, 4, answers .ok 0) := by decide

/-- V-CFG-8. -/
theorem test_set_offs_equal : look (step (send (.setOffs 3 3) [] State.reset)) (fun t => (t.cfgOffa, t.cfgOffb, t.ports.ctlOut)) = some (0, 1, answers .invalidParameter 0) := by decide

/-- V-POLL-2: writable although TX is full. -/
theorem test_poll_tx_full : look (step (send .poll [] { openIdle with tx := queueOf (counting 0 16) })) (fun t => t.ports.ctlOut) = some (answers .ok 2) := by decide

/-- V-POLL-3: not writable although TX is empty. -/
theorem test_poll_rx_full : look (step (send .poll [] { openIdle with rx := queueOf (counting 0 16) })) (fun t => t.ports.ctlOut) = some (answers .ok 1) := by decide

/-- V-N-1: OPEN, RX_ACTIVE, RD_BLOCKED. -/
theorem test_get_stat_status : look (step (send (.getStat 1) [] { rxRun with rdBlocked := some 4 })) (fun t => t.ports.ctlOut) = some (answers .ok 0x49) := by decide

/-- V-ERR-5. -/
theorem test_get_stat_reserved : look (step (send (.getStat 0xA) [] openIdle)) (fun t => t.ports.ctlOut) = some (answers .invalidParameter 0) := by decide

/-- V-RD-1. -/
theorem test_read_part : look (step (send (.read false 4) [] { openIdle with rx := queueOf (counting 0 12), readable := true })) (fun t => (contents t.cap t.rx, t.readable, t.ports.rdOut)) = some (counting 4 8, true, [{ status := .ok, value := 4, data := segment 0 }]) := by decide

/-- V-RD-2. -/
theorem test_read_all : look (step (send (.read false 12) [] { openIdle with rx := queueOf (counting 4 8), readable := true })) (fun t => (t.rx.count, t.readable, t.ports.rdOut)) = some (0, false, [{ status := .ok, value := 8, data := counting 4 8 }]) := by decide

/-- V-WR-3. -/
theorem test_write_full : look (step (send (.write [1, 2, 3, 4]) [] (txRun (counting 0 14)))) (fun t => (contents t.cap t.tx, t.writeable, t.ports.wrOut)) = some (counting 0 14 ++ [1, 2], false, answers .ok 2) := by decide

/-- V-WR-6. -/
theorem test_write_start_fails : look (step (send (.write [1, 2, 3, 4]) [false, false, false] txIdle)) (fun t => (t.mode, t.sel, t.tx.count, t.xferDir, t.ports.wrOut)) = some (.idle, .hiz, 4, .none, answers .deviceBusy 4) := by decide

/-- V-FL-1. -/
theorem test_flush : look (step (send .flush [] { openIdle with rx := queueOf (counting 0 12), tx := queueOf [1, 2, 3, 4], readable := true })) (fun t => (t.rx.count, t.readable, t.tx.count, t.ports.wrOut)) = some (0, false, 4, answers .ok 0) := by decide

/-- V-DSP-8: segment 3, the counter wraps. -/
theorem test_seg_done_rx_wraps : look (step (turn .dispatch [] [] { rxRun with completed := 0xFFFFFFFF, pending := 1, xferRemaining := 5 })) (fun t => (contents t.cap t.rx, t.completed, t.pending, t.readable, t.notifyCount, t.xferRemaining)) = some (counting 0xEC 4, 0, 0, true, 1, 8) := by decide

/-- V-DSP-4. -/
theorem test_seg_done_tx_fills : look (step (turn .dispatch [true] [] { txRun (counting 0x10 6) with pending := 1 })) (fun t => (memRead t 0x1000 4, Memory.read t.bounce 0x1004, contents t.cap t.tx, t.completed, t.dropped)) = some (some (counting 0x10 4), some 0xE4, [0x14, 0x15], 1, 0) := by decide

/-- V-DMA-8. -/
theorem test_tick_second_attempt : look (step (turn .tick [false, true] [] { txRun [] with xferRemaining := 2 })) (fun t => t.xferRemaining) = some (8) := by decide

/-- V-DMA-6: no draw taken. -/
theorem test_tick_above_threshold : look (step (turn .tick [true] [] { txRun [] with xferRemaining := 3 })) (fun t => (t.xferRemaining, t.env.bits)) = some (3, [true]) := by decide

/-- V-N-3. -/
theorem test_cancel : look (step (turn .hostSig [] [] { rxRun with rdBlocked := some 4 })) (fun t => (t.rdBlocked, t.ports.rdOut)) = some (none, answers .interrupted 0) := by decide

/-- V-DMA-2. -/
theorem test_dma_receive : look (step (turn .dma [] (segment 1) { rxRun with hwIdx := 1, xferRemaining := 7, pending := 1 })) (fun t => ((memRead t 0x1004 4, memRead t 0x1008 4), t.hwIdx, t.xferRemaining, t.pending, t.deadlineMiss)) = some ((some (segment 1), some (counting 0xE8 4)), 2, 6, 2, true) := by decide

/-- V-DMA-4. -/
theorem test_dma_transmit : look (step (turn .dma [] [] { txRun (counting 0 4) with xferRemaining := 1 })) (fun t => (t.txWire, t.xferRemaining, t.pending)) = some (counting 0xE0 4, 0, 1) := by decide

/-- V-N-2. -/
theorem test_read_wake : look (step (turn .hostRd [] [] { rxRun with rdBlocked := some 4, rx := queueOf (segment 0), readable := true })) (fun t => (t.rdBlocked, t.readable, t.ports.rdOut)) = some (none, false, [{ status := .ok, value := 4, data := segment 0 }]) := by decide

/-- V-ERR-1. -/
theorem test_illegal_word_answered : look (step (turn .hostCtl [] [] (setInput .ctl [0x04, 0x00, 0x00, 0x11] State.reset))) (fun t => (t.ports.ctlOut, t.ports.ctlIn)) = some (answers .illegalCommand 0, []) := by decide

/-- V-Q-1: a push stops at the capacity and wraps. -/
theorem test_push_wraps : (queuePush 16 { store := List.replicate 16 0, rd := 0, wr := 14, count := 14 } [1, 2, 3, 4, 5]).wr = 0 ∧
    (queuePush 16 { store := List.replicate 16 0, rd := 0, wr := 14, count := 14 } [1, 2, 3, 4, 5]).count = 16 := by decide

/-- P1 line 11: the response on the wire. -/
theorem test_response_bytes : Response.bytes { status := .ok, value := 2, data := [0x06, 0x07] }
    = [0x00, 0x00, 0x00, 0x00, 0x02, 0x00, 0x00, 0x00, 0x06, 0x07] := by decide

/-- The first step after reset runs the instruction placed by withFetchWord (log 17). -/
theorem test_first_step_get_mode : look (step (State.reset.withFetchWord 32 0x10000000)) (fun t => t.ports.ctlOut)
    = some (answers .ok 0) := by decide

theorem test_first_step_read : look (step (State.reset.withFetchWord 32 0x20000000)) (fun t => t.ports.rdOut)
    = some (answers .notOpen 0) := by decide

theorem test_first_step_seg_done : look (step (State.reset.withFetchWord 32 0x40000000)) (fun t => (t.pending, t.ports.evtIn))
    = some (0, []) := by decide

/-! ## Witnesses: for every statement with hypotheses, states and operands that meet them, at boundary values for each clause -/

theorem queueOf_ok (bs : List Byte) (h : bs.length ≤ 16) : QueueOk 16 (queueOf bs) where
  store := by simp [queueOf]; omega
  count := h
  rd := fun h => h
  wr := fun _ => by simp [queueOf]

/-- The states of the vectors are sound, with any of their queues, cursors and pending completions. -/
theorem openIdle_inv : Inv openIdle where
  params := by decide
  closed := nofun
  capacity := fun _ => ⟨4, by decide, by decide, rfl⟩
  rx := queueOf_ok [] (by decide)
  tx := queueOf_ok [] (by decide)
  devToMem := by decide
  memToDev := by decide
  noPending := by decide
  selector := by decide
  blocked := fun _ h => nomatch h
  bounce := by decide
  hwIdx := by decide
  mult := by decide
  offsets := by decide

theorem rxRun_inv (pending : Nat) (rx : List Byte) (h : rx.length ≤ 16) :
    Inv { rxRun with pending := pending, rx := queueOf rx } where
  params := openIdle_inv.params
  closed := nofun
  capacity := openIdle_inv.capacity
  rx := queueOf_ok rx h
  tx := openIdle_inv.tx
  devToMem := fun _ => .inl rfl
  memToDev := nofun
  noPending := nofun
  selector := ⟨nofun, nofun⟩
  blocked := fun _ h => nomatch h
  bounce := openIdle_inv.bounce
  hwIdx := openIdle_inv.hwIdx
  mult := openIdle_inv.mult
  offsets := openIdle_inv.offsets

theorem txRun_inv (pending : Nat) (tx : List Byte) (h : tx.length ≤ 16) : Inv { txRun tx with pending := pending } where
  params := openIdle_inv.params
  closed := nofun
  capacity := openIdle_inv.capacity
  rx := openIdle_inv.rx
  tx := queueOf_ok tx h
  devToMem := nofun
  memToDev := fun _ => rfl
  noPending := nofun
  selector := ⟨nofun, nofun⟩
  blocked := fun _ h => nomatch h
  bounce := openIdle_inv.bounce
  hwIdx := openIdle_inv.hwIdx
  mult := openIdle_inv.mult
  offsets := openIdle_inv.offsets

theorem reset_inv : Inv State.reset where
  params := by decide
  closed := fun _ => ⟨rfl, rfl, rfl, rfl, rfl, rfl, rfl, rfl, rfl⟩
  capacity := nofun
  rx := QueueOk.closed
  tx := QueueOk.closed
  devToMem := nofun
  memToDev := nofun
  noPending := fun _ => rfl
  selector := by decide
  blocked := fun _ h => nomatch h
  bounce := rfl
  hwIdx := by decide
  mult := by decide
  offsets := by decide

theorem witness_DecodeOfEncodeIsTheInstruction :
    (Instr.setOffs (-8) 7).wellFormed = true ∧ (Instr.write [0xFF]).wellFormed = true := by decide

theorem witness_DecodedStreamIsTheEncoding :
    decodeBytes .rd [0x00, 0x00, 0x00, 0x20, 0xFF, 0xFF, 0xFF, 0xFF, 0x01] = .instr (.read false 0xFFFFFFFF) [0x01] := by decide

/-- The first and last opcode of each range of R118 has no instruction; each assigned range's ends have one. -/
theorem witness_WordLegality :
    (∀ n ∈ [0x00, 0x03, 0x0F, 0x19, 0x1F, 0x21, 0x2F, 0x31, 0x3F, 0x43, 0xEF, 0xF0, 0xFF], opcodeOf (BitVec.ofNat 8 n) = none) ∧
    ∀ n ∈ [0x01, 0x02, 0x10, 0x18, 0x20, 0x30, 0x40, 0x42], opcodeOf (BitVec.ofNat 8 n) ≠ none := by decide

theorem witness_WordLegality_unassigned : unassigned (opField 0x43FFFFFF).toNat ∧ unassigned (opField 0xF0000000).toNat :=
  ⟨by unfold unassigned; decide, by unfold unassigned; decide⟩

theorem witness_CommandLengthByOpcodeAlone :
    opField 0x20FFFFFF = 0x20 ∧ (opField 0x30000002 = 0x30 ∧ (0x30000002 : Word).getLsbD 0 = false) ∧
    (opField 0x30000001 ≠ 0x20 ∧ ¬ (opField 0x30000001 = 0x30 ∧ (0x30000001 : Word).getLsbD 0 = false)) := by decide

theorem witness_IllegalWordAnsweredAndSkipped :
    decodeBytes .ctl ((setInput .ctl [0x04, 0x00, 0x00, 0x11] State.reset).ports.input .ctl) = .illegal .reservedBits [] ∧
    decodeBytes .evt ((setInput .evt [0x01, 0x00, 0x00, 0x40] State.reset).ports.input .evt) = .illegal .reservedBits [] := by
  decide

theorem witness_StepRunsTheDecodedCommand :
    paramsLegal (send (.read true 8) [] rxRun).par = true ∧ (send (.read true 8) [] rxRun).env.turns = [portAgent .rd] ∧
    (send (.read true 8) [] rxRun).rdBlocked = none ∧
    decodeBytes .rd ((send (.read true 8) [] rxRun).ports.input .rd) = .instr (.read true 8) [] := by decide

theorem witness_StepRunsTheAgents :
    paramsLegal rxRun.par = true ∧ (turn .hostSig [] [] rxRun).env.turns = [.hostSig] ∧
    (turn .tick [] [] rxRun).env.turns = [.tick] ∧ (turn .dispatch [] [] rxRun).env.turns = [.dispatch] ∧
    (turn .dma [] [] rxRun).env.turns = [.dma] ∧ rxRun.env.turns = [] := by decide

/-- P0 meets R10 and R8; raising T to L breaks R10, and one below does not; a SELECTOR value equal to SEL_HIZ breaks R8. -/
theorem witness_ParameterSetChecked :
    paramsLegal State.reset.par = true ∧ paramsLegal { Params.p0 with refreshThreshold := 8 } = false ∧
    paramsLegal { Params.p0 with refreshThreshold := 7 } = true ∧
    paramsLegal { Params.p0 with selector := [((.tx, 4, -1), .wire 9)], selHiz := .wire 9 } = false ∧
    paramsLegal { Params.p0 with selHiz := .select .tx 4 3 } = false := by decide

/-- Budget 3: the last sample counts, a fourth does not. -/
theorem witness_PollActiveSamplesUpToTheBudget :
    (pollFor true 3 { turns := [], bits := [false, false, true], bytes := [], drawn := 0 }).1 = true ∧
    (pollFor true 3 { turns := [], bits := [false, false, false, true], bytes := [], drawn := 0 }).1 = false := by decide

theorem witness_DmaSegmentStep_receives :
    Inv { rxRun with pending := 0, rx := queueOf [] } ∧ rxRun.xferDir = .devToMem ∧ rxRun.periphEn = true ∧
    0 < rxRun.xferRemaining := ⟨rxRun_inv 0 [] (by decide), by decide⟩

theorem witness_DmaSegmentStep_transmits :
    Inv { txRun [1] with pending := 0 } ∧ (txRun [1]).xferDir = .memToDev ∧ (txRun [1]).periphEn = true ∧
    0 < (txRun [1]).xferRemaining := ⟨txRun_inv 0 [1] (by decide), by decide⟩

/-- V-DSP-3: room for exactly a unit. -/
theorem witness_RxCompletion_moves :
    let s : State := { rxRun with pending := 1, rx := queueOf (counting 0 12) }
    Inv s ∧ s.xferDir = .devToMem ∧ 0 < s.pending ∧ ¬ (s.par.contentionDrop = true ∧ nextBit s.env = true) ∧
    s.rx.count + s.par.unit ≤ s.cap :=
  ⟨rxRun_inv 1 (counting 0 12) (by decide), by decide, by decide, fun h => absurd h.1 (by decide), by decide⟩

/-- V-DSP-2: one byte short of a unit; and a contended completion with an empty queue. -/
theorem witness_RxCompletion_drops :
    (let s : State := { rxRun with pending := 1, rx := queueOf (counting 0 13) }
     s.xferDir = .devToMem ∧ 0 < s.pending ∧ s.cap < s.rx.count + s.par.unit) ∧
    (let s : State := turn .dispatch [true] [] { rxRun with pending := 1, par := { Params.p0 with contentionDrop := true } }
     s.xferDir = .devToMem ∧ 0 < s.pending ∧ s.par.contentionDrop = true ∧ nextBit s.env = true) := by decide

/-- Exactly a unit queued. -/
theorem witness_TxCompletion_fills :
    let s : State := { txRun (counting 0 4) with pending := 1 }
    Inv s ∧ s.xferDir = .memToDev ∧ 0 < s.pending ∧
    ¬ (s.par.contentionDrop = true ∧ nextBit (dropBit s.env) = true) ∧ s.par.unit ≤ s.tx.count :=
  ⟨txRun_inv 1 (counting 0 4) (by decide), by decide, by decide, fun h => absurd h.1 (by decide), by decide⟩

/-- V-DSP-5 with one byte short of a unit; and a contended completion with a unit queued. -/
theorem witness_TxCompletion_underruns :
    (let s : State := { txRun (counting 0 3) with pending := 1 }
     s.xferDir = .memToDev ∧ 0 < s.pending ∧ s.tx.count < s.par.unit) ∧
    (let s : State := turn .dispatch [true, true] []
      { txRun (counting 0 4) with pending := 1, par := { Params.p0 with contentionDrop := true } }
     s.xferDir = .memToDev ∧ 0 < s.pending ∧ s.par.contentionDrop = true ∧ nextBit (dropBit s.env) = true) := by decide

theorem witness_EventsWithNothingToDo : openIdle.pending = 0 ∧ openIdle.xferDir = .none ∧ openIdle.rdBlocked = none := by decide

theorem witness_EventsWithNothingToDo_dma :
    openIdle.xferDir = .none ∧ ({ rxRun with periphEn := false } : State).periphEn = false ∧
    ({ rxRun with xferRemaining := 0 } : State).xferRemaining = 0 := by decide

theorem witness_EventsWithNothingToDo_wake :
    let s := turn .hostRd [] [] { rxRun with rdBlocked := some 4 }
    paramsLegal s.par = true ∧ s.env.turns = [.hostRd] ∧ s.rdBlocked = some 4 ∧ s.rx.count = 0 := by decide

theorem witness_SetModeWithoutTransition :
    State.reset.isOpen = false ∧ rxRun.isOpen = true ∧ Mode.rx0 = rxRun.mode ∧
    look (exec (.setMode .rx0) rxRun) (fun t => t.ports.ctlOut) = some (rxRun.ports.ctlOut ++ [plain .ok 0]) := by decide

theorem witness_SetModeIdleStops :
    let s := turn .hostCtl [true, true, false] [] rxRun
    s.isOpen = true ∧ s.mode ≠ .idle ∧ stopQuiesced s = true := by decide

theorem witness_SetModeTxEntersTransmit :
    let s := turn .hostCtl [false] [] rxRun
    s.isOpen = true ∧ s.mode ≠ .tx ∧ stopQuiesced s = true := by decide

/-- The three outcomes of the start, and a stop that quiesces. -/
theorem witness_SetModeReceiveStartsOrReverts :
    let s := fun bits => turn .hostCtl bits [] openIdle
    (s [false, true, true]).isOpen = true ∧ (s [false, true, true]).mode ≠ .rx1 ∧ stopQuiesced (s [false, true, true]) = true ∧
    startResult (stopTransfer (s [false, true, true])) = .ok ∧
    startResult (stopTransfer (s [false, true, false])) = .transferSetupFailed ∧
    startResult (stopTransfer (s [false, false, false, false])) = .deviceBusy := by decide

theorem witness_SetModeBusyKeepsOrIdles :
    let s := turn .hostCtl [true, true, true, false] [] rxRun
    s.isOpen = true ∧ Mode.idle ≠ s.mode ∧ stopQuiesced s = false ∧ nextBit (stopTransfer s).env = false := by decide

theorem witness_SetModeTransitionTable : openIdle.isOpen = true ∧ Mode.idle = openIdle.mode ∧ Mode.tx ≠ openIdle.mode := by decide

theorem witness_SetModeLeavesRxAndConfiguration : ∃ t, exec (.setMode .tx) txIdle = .next t ∧ txIdle.mode = .tx := ⟨_, rfl, rfl⟩

/-- LEN below, at and above the count. -/
theorem witness_ReadTakesTheOldestBytes_data :
    let s : State := { openIdle with rx := queueOf (counting 0 4) }
    s.isOpen = true ∧ (3 : Word) ≠ 0 ∧ (4 : Word) ≠ 0 ∧ (5 : Word) ≠ 0 ∧ 0 < s.rx.count := by decide

theorem witness_ReadTakesTheOldestBytes_none : State.reset.isOpen = false ∧ (0 : Word) = 0 ∧ openIdle.rx.count = 0 := by decide

theorem witness_BlockedReadWakes :
    let s := turn .hostRd [] [] { rxRun with rdBlocked := some 4, rx := queueOf [1] }
    paramsLegal s.par = true ∧ s.env.turns = [.hostRd] ∧ s.rdBlocked = some 4 ∧ 0 < s.rx.count := by decide

/-- A full TX queue with a transfer running; a byte that starts one; and mode Tx with nothing written (V-WR-5). -/
theorem witness_WriteQueuesAndStarts :
    (State.reset.isOpen = false) ∧
    ((txRun (counting 0 16)).isOpen = true ∧ QueueOk (txRun (counting 0 16)).cap (txRun (counting 0 16)).tx ∧
      ¬ ((txRun (counting 0 16)).xferDir = .none)) ∧
    (txIdle.isOpen = true ∧ QueueOk txIdle.cap txIdle.tx ∧ txIdle.mode = .tx ∧ txIdle.xferDir = .none ∧
      0 < txIdle.tx.count + min [(1 : Byte)].length (txIdle.cap - txIdle.tx.count) ∧
      ¬ (0 < txIdle.tx.count + min ([] : List Byte).length (txIdle.cap - txIdle.tx.count))) :=
  ⟨rfl, ⟨rfl, queueOf_ok _ (by decide), by decide⟩, ⟨rfl, queueOf_ok _ (by decide), rfl, rfl, by decide, by decide⟩⟩

theorem witness_CloseReleasesTheEngine : State.reset.isOpen = false ∧ rxRun.isOpen = true := by decide

theorem witness_OpenReinitialises :
    (Inv (turn .hostCtl [true] [] State.reset) ∧ (turn .hostCtl [true] [] State.reset).isOpen = false ∧
      nextBit (turn .hostCtl [true] [] State.reset).env = true) ∧
    (Inv (turn .hostCtl [false, true] [] openIdle) ∧ ∃ t, exec .closeDev (turn .hostCtl [false, true] [] openIdle) = .next t ∧
      nextBit t.env = true) :=
  ⟨⟨reset_inv.keep _ _ _ _ _ _ _ _ _ _ _, rfl, rfl⟩, ⟨openIdle_inv.keep _ _ _ _ _ _ _ _ _ _ _, _, rfl, rfl⟩⟩

/-- A full queue and an empty one. -/
theorem witness_QueuePushAppendsPopTakesTheFront : QueueOk 16 (queueOf (counting 0 16)) ∧ QueueOk 0 Queue.closed :=
  ⟨queueOf_ok _ (by decide), QueueOk.closed⟩

theorem witness_QueueConservesBytes : QueueOk 16 (queueOf [1, 2, 3]) := queueOf_ok _ (by decide)

/-- The last segment of the region is read and written; an access one byte further is not. -/
theorem witness_MemoryAccessIsExact :
    (memWrite openIdle 0x100C [1, 2, 3, 4]).isSome = true ∧ (memWrite openIdle 0x100D [1, 2, 3, 4]).isSome = false ∧
    (memRead openIdle 0x100C 4).isSome = true ∧ (memRead openIdle 0x100D 4).isSome = false ∧
    Inv openIdle ∧ openIdle.isOpen = true ∧ 3 < openIdle.par.nSeg ∧ [(1 : Byte), 2, 3, 4].length = openIdle.par.unit :=
  ⟨by decide, by decide, by decide, by decide, openIdle_inv, by decide⟩

theorem witness_ResetIsSound : paramsLegal Params.p0 = true := by decide

theorem witness_StepKeepsTheInvariants : Inv (turn .tick [] [] openIdle) ∧ ∃ t, step (turn .tick [] [] openIdle) = .next t :=
  ⟨openIdle_inv.keep _ _ _ _ _ _ _ _ _ _ _, _, rfl⟩

theorem witness_TheBlockNeverFaults : Inv { rxRun with pending := 5, rx := queueOf (counting 0 16) } :=
  rxRun_inv 5 _ (by decide)

theorem witness_StepKeepsCompletionsTracked :
    let s : State := turn .dma [] [] { rxRun with pending := 0, rx := queueOf [] }
    Inv s ∧ SegmentsTracked s ∧ DeadlineTracked s ∧ ∃ t, step s = .next t :=
  ⟨(rxRun_inv 0 [] (by decide)).keep _ _ _ _ _ _ _ _ _ _ _, fun _ => rfl, fun _ => Nat.zero_le _, _, rfl⟩

theorem witness_StepKeepsStallsLiftable :
    let s : State := turn .dma [] [] { rxRun with pending := 0, rx := queueOf [] }
    Inv s ∧ PeripheralTracked s ∧ RxStallHasCompletions s ∧ ∃ t, step s = .next t :=
  ⟨(rxRun_inv 0 [] (by decide)).keep _ _ _ _ _ _ _ _ _ _ _, ⟨fun _ => ⟨rfl, rfl⟩, Nat.le_refl _⟩, fun _ => Nat.le_refl _, _, rfl⟩

theorem witness_StepKeepsMemoryCanonical : Memory.wf openIdle.bounce ∧ ∃ t, step (turn .tick [] [] openIdle) = .next t :=
  ⟨openIdle_inv.memory_wf, _, rfl⟩

theorem witness_RxStreamIsConserved :
    (Inv { rxRun with pending := 1, rx := queueOf [] } ∧ ∃ t, exec .segDone { rxRun with pending := 1, rx := queueOf [] } = .next t) ∧
    (∃ t, exec .flush openIdle = .next t) ∧ ∃ t, dmaSegment openIdle = .next t :=
  ⟨⟨rxRun_inv 1 [] (by decide), _, rfl⟩, ⟨_, rfl⟩, ⟨_, rfl⟩⟩

/-- An open device under OPEN and SET_MULT, and a closed one under SET_MULT. -/
theorem witness_GeometryIsFixedWhileOpen :
    (∃ t, exec .openDev openIdle = .next t ∧ openIdle.isOpen = true) ∧ (∃ t, exec (.setMult 32) openIdle = .next t) ∧
    ∃ t, exec (.setMult 32) State.reset = .next t := ⟨⟨_, rfl, rfl⟩, ⟨_, rfl⟩, ⟨_, rfl⟩⟩

theorem witness_OnlySetModeWriteCloseChangeTheMode :
    (Inv openIdle ∧ ∃ t, exec .openDev openIdle = .next t) ∧
    look (exec (.write [1]) (turn .hostWr [false, false, false] [] txIdle)) (fun t => t.mode) = some .idle ∧ txIdle.mode ≠ .idle ∧
    ∃ t, dmaSegment openIdle = .next t :=
  ⟨⟨openIdle_inv, _, rfl⟩, by decide, by decide, _, rfl⟩

theorem witness_NotifyPulsesExactly :
    (∃ t, exec .segDone { rxRun with pending := 1 } = .next t) ∧ ∃ t, dmaSegment openIdle = .next t := ⟨⟨_, rfl⟩, ⟨_, rfl⟩⟩

theorem witness_WireGrowsByWholeSegments : (∃ t, exec .poll openIdle = .next t) ∧ ∃ t, dmaSegment (txRun [1]) = .next t :=
  ⟨⟨_, rfl⟩, ⟨_, rfl⟩⟩

theorem witness_OnlyCancelCloseLiftABlockedRead :
    ∃ t, exec .flush { openIdle with rdBlocked := some 4 } = .next t ∧ ({ openIdle with rdBlocked := some 4 } : State).rdBlocked = some 4 :=
  ⟨_, rfl, rfl⟩

/-- A host command answered, a READ that blocks, an event, and the READ that CANCEL ends. -/
theorem witness_EveryCommandIsAnsweredOnce :
    (∃ t, exec .closeDev rxRun = .next t ∧ Instr.closeDev.port ≠ .evt) ∧
    exec (.read false 4) rxRun = .next { rxRun with rdBlocked := some 4 } ∧
    (∃ t, exec .refreshTick rxRun = .next t ∧ Instr.refreshTick.port = .evt) ∧
    ∃ t, exec .cancel { rxRun with rdBlocked := some 4 } = .next t := ⟨⟨_, rfl, by decide⟩, rfl, ⟨_, rfl, rfl⟩, ⟨_, rfl⟩⟩

/-- A deployment's SELECTOR, as numbers on the wire. -/
def wireSelector (m : Mode) (a b : Int) : SelectorValue := .wire (m.code + 4 * (a + 1).toNat + 32 * (b + 1).toNat)

/-- An open idle device under a deployment's SELECTOR and SEL_HIZ, the next samples of ACTIVE quiescing and starting. -/
def wired : State := turn .hostCtl [false, true, true] []
  { openIdle with par := { Params.p0 with selector := selectorTable wireSelector, selHiz := .wire 0 }, sel := .wire 0 }

theorem witness_SelectorIsTheGivenFunction :
    wired.par.selector = selectorTable wireSelector ∧ Mode.rx1 ≠ .idle ∧ -1 ≤ wired.cfgOffa ∧ wired.cfgOffa ≤ 4 ∧
    -1 ≤ wired.cfgOffb ∧ wired.cfgOffb ≤ 4 ∧ wired.isOpen = true ∧ wired.mode ≠ .rx1 ∧ stopQuiesced wired = true ∧
    startResult (stopTransfer wired) = .ok := ⟨rfl, by decide⟩

theorem witness_SelectorIsTheGivenFunction_distinct : paramsLegal wired.par = true := by decide

/-- Code 2 for RX1, offsets 0 and 1: 2 + 4 + 64. -/
theorem test_selector_wired : look (exec (.setMode .rx1) wired) (fun t => t.sel) = some (.wire 70) := by decide

theorem witness_ParametersNeverChange : ∃ t, step (turn .tick [] [] wired) = .next t := ⟨_, rfl⟩

end Sys2Proof.Tests
end

