-- ==== Sys2Proof/Proofs/Scope.lean ====
section
/-! PROOF. The parameter set (00_scope.md R8, R10): what the check of step asks for, and what a step does on either side of it. -/

namespace Sys2Proof.Machine

/-- The constraints of R10 on a parameter set. -/
def MeetsR10 (p : Params) : Prop :=
  2 ≤ p.nSeg ∧ 1 ≤ p.unit ∧ (2 ≤ p.multReset.toNat ∧ p.multReset.toNat ≤ 32) ∧
    (-1 ≤ p.offaReset ∧ p.offaReset ≤ 4) ∧ (-1 ≤ p.offbReset ∧ p.offbReset ≤ 4) ∧ (p.offaReset, p.offbReset) ∈ p.offsLegal ∧
    1 ≤ p.quiesceBudget ∧ 1 ≤ p.startBudget ∧ 1 ≤ p.xferLen ∧ p.refreshThreshold < p.xferLen ∧
    1 ≤ p.refreshRetries ∧ p.txFillOffset < p.nSeg ∧ 2 ^ 32 % p.nSeg = 0 ∧ 32 * p.unit < 2 ^ 32 ∧
    p.bounceBase + p.nSeg * p.unit ≤ 2 ^ p.addrW

/-- The MULT range check in arithmetic (R293). -/
theorem multLegal_iff {v : BitVec 8} : multLegal v = true ↔ 2 ≤ v.toNat ∧ v.toNat ≤ 32 := by
  rw [multLegal, Bool.and_eq_true, decide_eq_true_eq, decide_eq_true_eq]

/-- The check of an offset pair in arithmetic: both ranges, then OFFS_LEGAL (R295). -/
theorem offsetsAccepted_iff {p : Params} {a b : Int} :
    offsetsAccepted p a b = true ↔ (-1 ≤ a ∧ a ≤ 4) ∧ (-1 ≤ b ∧ b ≤ 4) ∧ (a, b) ∈ p.offsLegal := by
  simp only [offsetsAccepted, offsInRange, offsLegal, Bool.and_eq_true, decide_eq_true_eq, and_assoc]

/-- The check of step is R10's constraints with the two of R8. -/
theorem paramsLegal_iff {p : Params} :
    paramsLegal p = true ↔ MeetsR10 p ∧ 1 ≤ p.addrW ∧ hizDistinct p = true := by
  simp only [paramsLegal, MeetsR10, bounceSize, decide_eq_true_eq, multLegal_iff, offsetsAccepted_iff]
  tauto

/-- SEL_HIZ is distinct when no non-idle mode and offsets in range select it (R8). -/
theorem hizDistinct_of_ne {p : Params}
    (h : ∀ (m : Mode) (a b : Int), m ≠ .idle → -1 ≤ a → a ≤ 4 → -1 ≤ b → b ≤ 4 → selectorValue p m a b ≠ p.selHiz) :
    hizDistinct p = true := by
  refine hizDistinct_iff.mpr fun m a b hx => ?_
  obtain ⟨hm, ha, hb⟩ := mem_selectorArgs.mp hx
  obtain ⟨ha₁, ha₂⟩ := mem_offsRange.mp ha
  obtain ⟨hb₁, hb₂⟩ := mem_offsRange.mp hb
  exact h m a b hm ha₁ ha₂ hb₁ hb₂

theorem step_refused_of_not_meetsR10 {s : State} (h : ¬ MeetsR10 s.par) : step s = .refused .parameterSet :=
  step_illegal (Bool.eq_false_iff.mpr fun hp => h (paramsLegal_iff.mp hp).1)

/-- Settles O9: the check of step is R10's constraints with R8's two, and a step runs an agent exactly when it passes. -/
theorem parameterSetChecked : Obligations.ParameterSetChecked := fun _ =>
  ⟨step_refused_of_not_meetsR10,
    fun hr10 haddr hhiz => step_legal (paramsLegal_iff.mpr ⟨hr10, haddr, hizDistinct_of_ne hhiz⟩)⟩

end Sys2Proof.Machine
end

