-- ==== Sys2Proof/Proofs/State.lean ====
section
/-! PROOF. The state (10_state.md): the bits of the STATUS register (R56) and the power-on values (R65). -/

namespace Sys2Proof.Machine

/-- A flag stands at its own position of the register and nowhere else. -/
theorem flagBit_getLsbD {pos : Nat} (hpos : pos < 32) (b : Bool) (j : Nat) :
    (flagBit pos b).getLsbD j = (decide (pos = j) && b) := by
  cases b with
  | false => simp [flagBit]
  | true =>
    rw [flagBit, BitVec.getLsbD_ofNat, Bool.toNat_true, Nat.one_mul, Nat.testBit_two_pow, Bool.and_true,
      Bool.and_eq_right_iff_imp, decide_eq_true_eq, decide_eq_true_eq]
    rintro rfl
    exact hpos

/-- The flags of STATUS from bit 0 up, as R56 lists them. -/
def statusFlags (s : State) : List Bool :=
  [s.isOpen, s.readable, s.writeable, decide (s.xferDir = .devToMem), decide (s.xferDir = .memToDev), s.deadlineMiss,
    decide (s.rdBlocked ≠ none)]

/-- Every bit of STATUS is the flag listed at its position, and 0 past the list. -/
theorem statusWord_getLsbD (s : State) (j : Nat) : (statusWord s).getLsbD j = (statusFlags s).getD j false := by
  have hblocked : s.rdBlocked.isSome = decide (s.rdBlocked ≠ none) := by
    rw [Bool.eq_iff_iff, decide_eq_true_eq, Option.isSome_iff_ne_none]
  have hbits : ∀ (k : Nat) (b : Bool), k < 7 → (flagBit k b).getLsbD j = (decide (k = j) && b) :=
    fun k b hk => flagBit_getLsbD (by omega) b j
  simp only [statusWord, statusFlags, BitVec.getLsbD_or, hbits, hblocked, Nat.reduceLT]
  match j with
  | 0 | 1 | 2 | 3 | 4 | 5 | 6 => simp [beq_eq_decide]
  | _ + 7 => simp

theorem statusWord_high (s : State) (j : Nat) (hj : 7 ≤ j) : (statusWord s).getLsbD j = false := by
  rw [statusWord_getLsbD, List.getD_eq_default _ _ hj]

/-- There is one transfer direction, so RX_ACTIVE and TX_ACTIVE exclude each other. -/
theorem statusWord_oneActive (s : State) :
    ¬ ((statusWord s).getLsbD 3 = true ∧ (statusWord s).getLsbD 4 = true) := by
  rw [statusWord_getLsbD, statusWord_getLsbD]
  rintro ⟨hrx, htx⟩
  have hdir : Dir.devToMem = Dir.memToDev := (of_decide_eq_true hrx).symm.trans (of_decide_eq_true htx)
  cases hdir

/-- Settles O29: each bit of STATUS is the flag R56 lists at its position. -/
theorem statusBits : Obligations.StatusBits := fun s =>
  have bit := statusWord_getLsbD s
  ⟨rfl, bit 0, bit 1, bit 2, bit 3, bit 4, bit 5, bit 6, statusWord_high s, statusWord_oneActive s⟩

/-- Settles O38: every field of the reset state is defined as its entry in R65's table. -/
theorem resetValues : Obligations.ResetValues := by
  intro p
  and_intros <;> rfl

end Sys2Proof.Machine
end

