-- ==== Sys2Proof/Proofs/Memory.lean ====
section
/-! PROOF. Accesses to the bounce memory (20_memory.md R82): their bounds, and what a store leaves and a read returns. -/

namespace Sys2Proof.Machine

open Sys2Proof.Claims

/-- The access requirement in arithmetic (R82). -/
theorem inBounce_iff {p : Params} {a n : Nat} :
    inBounce p a n = true ↔ p.bounceBase ≤ a ∧ a + n ≤ p.bounceBase + p.nSeg * p.unit := by
  rw [inBounce, bounceSize, Bool.and_eq_true, decide_eq_true_eq, decide_eq_true_eq]

/-- A write answers exactly when it keeps to the region and its cells exist. -/
theorem memWrite_eq_some_iff {s t : State} {a : Nat} {v : List Byte} :
    memWrite s a v = some t ↔ inBounce s.par a v.length = true ∧
      ∃ m, Memory.writeBytes s.bounce a v = some m ∧ { s with bounce := m } = t := by
  rw [memWrite, Option.ite_none_right_eq_some, Option.map_eq_some_iff]

/-- A read answers exactly when it keeps to the region and its cells exist. -/
theorem memRead_eq_some_iff {s : State} {a n : Nat} {bs : List Byte} :
    memRead s a n = some bs ↔ inBounce s.par a n = true ∧ Memory.readBytes s.bounce a n = some bs := by
  rw [memRead, Option.ite_none_right_eq_some]

theorem Memory.stored_of_writeBytes {m m' : Memory} {a : Nat} {v : List Byte} (h : Memory.writeBytes m a v = some m') :
    Stored m m' a v :=
  ⟨Memory.writeBytes_addrs h, fun _ hi => Memory.read_writeBytes_inside h hi,
    fun _ hc => Memory.read_writeBytes_outside h hc⟩

/-- What was stored is held. -/
theorem Memory.holds_of_stored {m m' : Memory} {a : Nat} {v : List Byte} (h : Stored m m' a v) : Holds m' a v := by
  obtain ⟨-, hinside, -⟩ := h
  exact hinside

/-- A run of bytes is held when its first byte stands at its start and the rest is held behind it. -/
theorem Memory.holds_cons_iff {m : Memory} {a : Nat} {b : Byte} {bs : List Byte} :
    Holds m a (b :: bs) ↔ Memory.read m a = some b ∧ Holds m (a + 1) bs := by
  constructor
  · intro h
    refine ⟨h 0 (Nat.zero_lt_succ _), fun i hi => ?_⟩
    rw [Nat.add_right_comm]
    exact h (i + 1) (Nat.succ_lt_succ hi)
  · rintro ⟨hb, hbs⟩ i hi
    cases i with
    | zero => exact hb
    | succ i =>
      have hi' := hbs i (Nat.lt_of_succ_lt_succ hi)
      rwa [Nat.add_right_comm] at hi'

/-- Bytes that are held are what a read of their length returns. -/
theorem Memory.readBytes_of_holds {m : Memory} {a : Nat} {bs : List Byte} (h : Holds m a bs) :
    Memory.readBytes m a bs.length = some bs := by
  induction bs generalizing a with
  | nil => rfl
  | cons b bs ih =>
    obtain ⟨hb, hbs⟩ := Memory.holds_cons_iff.mp h
    simp only [List.length_cons, Memory.readBytes, hb, ih hbs, Option.map_some]

/-- Read after write: a read of the range just written returns the bytes written (R82). -/
theorem memRead_memWrite {s t : State} {a : Nat} {v : List Byte} (h : memWrite s a v = some t) :
    memRead t a v.length = some v := by
  obtain ⟨hin, m, hm, rfl⟩ := memWrite_eq_some_iff.mp h
  exact memRead_eq_some_iff.mpr ⟨hin, Memory.readBytes_of_holds (Memory.holds_of_stored (Memory.stored_of_writeBytes hm))⟩

/-- The bounce bytes of an open sound state are those of the region (R81). -/
theorem Inv.bounce_of_open {s : State} (h : Inv s) (ho : s.isOpen = true) : s.bounce.map Prod.fst = bounceAddrs s.par :=
  h.bounce.trans (if_pos ho)

/-- Settles O41: a write and a read are inverted into their bounds and their bytes; segments of an open device stand whole in the region. -/
theorem memoryAccessIsExact : Obligations.MemoryAccessIsExact := by
  refine ⟨fun s t a v h => ?_, fun s a n bs h => ?_, fun s k v hinv hopen hk hv => ?_⟩
  · have hback := memRead_memWrite h
    obtain ⟨hin, m, hm, rfl⟩ := memWrite_eq_some_iff.mp h
    obtain ⟨hlo, hhi⟩ := inBounce_iff.mp hin
    exact ⟨hlo, hhi, Memory.stored_of_writeBytes hm, rfl, hback⟩
  · obtain ⟨hin, hbs⟩ := memRead_eq_some_iff.mp h
    obtain ⟨hlo, hhi⟩ := inBounce_iff.mp hin
    exact ⟨hlo, hhi, Memory.readBytes_length hbs, fun _ hi => Memory.readBytes_get hbs hi⟩
  · have haddrs := hinv.bounce_of_open hopen
    obtain ⟨bs, hread, -⟩ := memRead_segment haddrs hk
    obtain ⟨m, hwrite, -, -⟩ := memWrite_segment haddrs hk hv
    exact ⟨⟨bs, hread⟩, _, hwrite⟩

end Sys2Proof.Machine
end

