-- ==== Sys2Proof/Proofs/Encoding.lean ====
section
/-! PROOF. The decoder (30_encoding.md): which words are legal (R117 to R119), where the next command starts (R116), what an illegal word does (R120), and the worked encodings (R125). -/

namespace Sys2Proof.Machine

open Sys2Proof.Claims

/-! ## Which words are legal -/

/-- No opcode of R115 has a number that R118 leaves unassigned. -/
theorem not_unassigned_number (o : Opcode) : ¬ unassigned o.number := by
  unfold unassigned
  cases o <;> decide

theorem number_of_opcodeOf {op : BitVec 8} {o : Opcode} (h : opcodeOf op = some o) : o.number = op.toNat :=
  beq_iff_eq.mp (List.find?_some (p := fun o : Opcode => o.number == op.toNat) h)

theorem opcodeOf_eq_none_of_unassigned {op : BitVec 8} (h : unassigned op.toNat) : opcodeOf op = none :=
  Option.eq_none_iff_forall_ne_some.mpr fun o ho => not_unassigned_number o (number_of_opcodeOf ho ▸ h)

/-- A word whose opcode is assigned is legal exactly on that opcode's port with the format's reserved bits zero (R117). -/
theorem decodeWord_eq_ok_iff {p : Port} {cw lw : Word} {data : List Byte} {o : Opcode} {i : Instr}
    (ho : opcodeOf (opField cw) = some o) :
    decodeWord p cw lw data = .ok i ↔ (o.port = p ∧ cw &&& o.format.reserved = 0) ∧ assemble o cw lw data = i := by
  simp only [decodeWord, ho]
  split
  · next hport => exact ⟨nofun, fun h => absurd h.1.1 hport⟩
  · next hport =>
    split
    · next hres => exact ⟨nofun, fun h => absurd h.1.2 hres⟩
    · next hres => simp [not_not.mp hport, not_not.mp hres]

/-- A word whose opcode is unassigned is rejected (R118). -/
theorem decodeWord_of_opcodeOf_none {p : Port} {cw lw : Word} {data : List Byte} (h : opcodeOf (opField cw) = none) :
    ∃ why, decodeWord p cw lw data = .error why := by
  simp only [decodeWord, h]
  exact ⟨_, rfl⟩

/-- Settles O4: an unassigned number has no opcode, and for an assigned one the decoder's two checks are the condition. -/
theorem wordLegality : Obligations.WordLegality := by
  refine fun p cw lw data => ⟨fun h => decodeWord_of_opcodeOf_none (opcodeOf_eq_none_of_unassigned h), fun o ho => ?_⟩
  simp only [decodeWord_eq_ok_iff ho, exists_and_left, exists_eq', and_true]

/-! ## Where the next command starts -/

section
variable {p : Port} {cw : Word}

theorem follow_read (hp : p ≠ .evt) (hop : opField cw = 0x20) : follow p cw = .lengthWord := by
  rw [follow, if_neg hp, if_pos hop]

theorem follow_write (hp : p ≠ .evt) (hop : opField cw = 0x30) (hbit : cw.getLsbD 0 = false) :
    follow p cw = .lengthAndData := by
  have hne : opField cw ≠ 0x20 := by rw [hop]; decide
  rw [follow, if_neg hp, if_neg hne, if_pos ⟨hop, hbit⟩]

theorem follow_other (hr : opField cw ≠ 0x20) (hw : ¬ (opField cw = 0x30 ∧ cw.getLsbD 0 = false)) :
    follow p cw = .nothing := by
  rw [follow, if_neg hr, if_neg hw, ite_self]

theorem decodeBytes_word (h : follow p cw = .nothing) (tail : List Byte) :
    decodeBytes p (wordBytes cw ++ tail) = fetched (decodeWord p cw 0 []) tail := by
  simp only [decodeBytes, takeWord_wordBytes, h]

theorem decodeBytes_lengthWord (h : follow p cw = .lengthWord) (lw : Word) (tail : List Byte) :
    decodeBytes p (wordBytes cw ++ (wordBytes lw ++ tail)) = fetched (decodeWord p cw lw []) tail := by
  simp only [decodeBytes, takeWord_wordBytes, h]

theorem decodeBytes_lengthAndData (h : follow p cw = .lengthAndData) {lw : Word} {data : List Byte}
    (hlen : data.length = lw.toNat) (tail : List Byte) :
    decodeBytes p (wordBytes cw ++ (wordBytes lw ++ (data ++ tail))) = fetched (decodeWord p cw lw data) tail := by
  have hwhole : ¬ (data ++ tail).length < lw.toNat := by rw [List.length_append]; omega
  simp only [decodeBytes, takeWord_wordBytes, h, if_neg hwhole, List.take_left' hlen, List.drop_left' hlen]

end

/-- The rest of the stream does not depend on whether the word was legal. -/
theorem restOf_fetched (d : Except Reject Instr) (rest : List Byte) : restOf (fetched d rest) = some rest := by
  cases d <;> rfl

/-- Settles O5: OP and CW[0] decide what follows the word, and the rest of the stream behind that is left, legal or not. -/
theorem commandLengthByOpcodeAlone : Obligations.CommandLengthByOpcodeAlone := by
  refine fun p cw lw data tail hp => ⟨fun hop => ?_, fun hop hbit hlen => ?_, fun hr hw => ?_⟩
  · rw [decodeBytes_lengthWord (follow_read hp hop), restOf_fetched]
  · rw [decodeBytes_lengthAndData (follow_write hp hop hbit) hlen, restOf_fetched]
  · rw [decodeBytes_word (follow_other hr hw), restOf_fetched]

/-! ## The worked encodings -/

/-- Settles O3: fixed words, so the encoder and the decoder are run on each. -/
theorem workedEncodingsAgree : Obligations.WorkedEncodingsAgree := by
  unfold Obligations.WorkedEncodingsAgree
  decide

/-! ## An illegal word -/

theorem runPort_illegal {p : Port} {s : State} {why : Reject} {rest : List Byte}
    (h : decodeBytes p (s.ports.input p) = .illegal why rest) :
    runPort p s = .next (answerIllegal p (setInput p rest s)) := by
  simp only [runPort, h]

/-- The answer to an illegal word is a response on a host port and nothing on the event input (R120). -/
theorem answerIllegal_eq (p : Port) (s : State) :
    answerIllegal p s =
      { s with ports := if p = .evt then s.ports else s.ports.answer p (plain .illegalCommand 0) } := by
  cases p <;> rfl

/-- Settles O6: the port moves past the word, and the answer adds one response or, on the event input, nothing. -/
theorem illegalWordAnsweredAndSkipped : Obligations.IllegalWordAnsweredAndSkipped := by
  intro p s why rest h
  rw [runPort_illegal h, answerIllegal_eq]
  rfl

end Sys2Proof.Machine
end

