-- ==== Sys2Proof/Proofs/Mode.lean ====
section
/-! PROOF. The mode state machine (40_mode_state_machine.md): the branches of SET_MODE and its transition table (R150 to R157), and the queries of the mode and the configuration (R158, R291, R292, R294). -/

namespace Sys2Proof.Machine

open Sys2Proof.Claims

/-! ## SET_MODE to another mode on an open device -/

theorem exec_setMode (m : Mode) (s : State) : exec (.setMode m) s = .next (setMode m s) := rfl

section
variable {m : Mode} {s : State}

theorem setMode_of_quiesced (ho : s.isOpen = true) (hm : m ≠ s.mode) (hq : stopQuiesced s = true) :
    setMode m s = modeAfterStop m (stopTransfer s) := by
  simp [setMode, ho, hm, hq]

theorem setMode_of_timeout (ho : s.isOpen = true) (hm : m ≠ s.mode) (hq : stopQuiesced s = false) :
    setMode m s = raise .ctl .deviceBusy (deviceBusyOutcome (stopTransfer s)) := by
  simp [setMode, ho, hm, hq]

/-- Both receive channels are entered alike (R153). -/
theorem modeAfterStop_receive (hm : m = .rx0 ∨ m = .rx1) :
    modeAfterStop m s = enterReceive m (configureSelector m (enterIdle s)) := by
  rcases hm with rfl | rfl <;> rfl

end

/-- StartTransfer neither reads nor writes the mode and the selector. -/
theorem startTransfer_of_mode_sel (d : Dir) (s : State) (m : Mode) (v : SelectorValue) :
    startTransfer d { s with mode := m, sel := v } = { startTransfer d s with mode := m, sel := v } := by
  have hpoll : startPoll { s with mode := m, sel := v } = startPoll s := rfl
  unfold startTransfer
  rw [hpoll]
  split
  · split <;> rfl
  · rfl

/-- A start that is not OK reports one of two errors (R171). -/
theorem startResult_error {s : State} (h : startResult s ≠ .ok) :
    startResult s = .deviceBusy ∨ startResult s = .transferSetupFailed := by
  rcases startTransfer_cases .devToMem s with ⟨hok, -⟩ | ⟨hfailed, -⟩ | ⟨hbusy, -⟩
  · exact absurd hok h
  · exact .inr hfailed
  · exact .inl hbusy

/-- The draw fb of a stop that timed out decides the mode and the selector, and nothing else (R154). -/
theorem deviceBusyOutcome_eq (s : State) :
    deviceBusyOutcome s = { s with
      env := dropBit s.env
      mode := if nextBit s.env then s.mode else .idle
      sel := if nextBit s.env then s.sel else s.par.selHiz } := by
  unfold deviceBusyOutcome
  cases nextBit s.env <;> rfl

theorem deviceBusyOutcome_mode (s : State) :
    (deviceBusyOutcome s).mode = s.mode ∨ (deviceBusyOutcome s).mode = .idle := by
  rw [deviceBusyOutcome_eq]
  exact ite_eq_or_eq _ _ _

/-- Settles O20: after the stop, the branch of Tx resets the queue and starts no transfer. -/
theorem setModeTxEntersTransmit : Obligations.SetModeTxEntersTransmit := by
  intro s ho hm hq
  rw [exec_setMode, setMode_of_quiesced ho hm.symm hq]
  rfl

/-- Settles O21: the start does not read the mode and the selector set before it, so it ends as from the stop's state. -/
theorem setModeReceiveStartsOrReverts : Obligations.SetModeReceiveStartsOrReverts := by
  intro m s hrx ho hm hq
  have hresult : startResult (configureSelector m (enterIdle (stopTransfer s))) = startResult (stopTransfer s) := rfl
  have hstart : startTransfer .devToMem (configureSelector m (enterIdle (stopTransfer s))) =
      { startTransfer .devToMem (stopTransfer s) with
        mode := .idle, sel := selectorValue s.par m s.cfgOffa s.cfgOffb } :=
    startTransfer_of_mode_sel .devToMem (stopTransfer s) _ _
  rw [exec_setMode, setMode_of_quiesced ho hm.symm hq, modeAfterStop_receive hrx, enterReceive, hresult, hstart]
  split
  · simp [done, respond, plain]
  · simp [raise, respond, enterIdle, plain]

/-- Settles O22: the stop's state, with the mode and the selector the draw fb leaves. -/
theorem setModeBusyKeepsOrIdles : Obligations.SetModeBusyKeepsOrIdles := by
  intro m s ho hm hq
  rw [exec_setMode, setMode_of_timeout ho hm hq, deviceBusyOutcome_eq]
  rfl

/-! ## The transition table -/

/-- Settles O23: each case of SET_MODE on an open device is a row of the table, and the guards of the other rows exclude it. -/
theorem setModeTransitionTable : Obligations.SetModeTransitionTable := by
  intro m s ho
  refine ⟨setMode m s, ?_⟩
  rcases setMode_cases m s with ⟨hclosed, -⟩ | ⟨-, hm, e⟩ | ⟨-, hm, hq, e⟩ | ⟨-, hm, hq, rfl, e⟩ | ⟨-, hm, hq, rfl, e⟩ |
    ⟨-, hm, hq, hrx, hs, e⟩ | ⟨-, hm, hq, hrx, hs, e⟩
  · rw [ho] at hclosed
    cases hclosed
  · refine ⟨.ok, exec_setMode m s, ?_⟩
    simp [e, ← hm, Ports.answer, plain]
  · have hmode : (deviceBusyOutcome (stopTransfer s)).mode = s.mode ∨ (deviceBusyOutcome (stopTransfer s)).mode = .idle :=
      deviceBusyOutcome_mode (stopTransfer s)
    refine ⟨.deviceBusy, exec_setMode m s, ?_⟩
    simp [e, hm, hq, hmode, Ports.answer, plain]
  · refine ⟨.ok, exec_setMode .idle s, ?_⟩
    simp [e, hm, hq, Ports.answer, plain]
  · refine ⟨.ok, exec_setMode .tx s, ?_⟩
    simp [e, hm, hq, Ports.answer, plain]
  · refine ⟨.ok, exec_setMode m s, ?_⟩
    rcases hrx with rfl | rfl <;> simp [e, hm, hq, hs, Ports.answer, plain]
  · have herror := startResult_error hs
    refine ⟨startResult (stopTransfer s), exec_setMode m s, ?_⟩
    rcases hrx with rfl | rfl <;> simp [e, hm, hq, hs, herror, Ports.answer, plain]

/-! ## The queries -/

/-- An offset's 4-bit pattern is the offset modulo 16 (R114). -/
theorem bits4_toNat (x : Int) : ((bits4 x).toNat : Int) = x % 16 := by
  rw [bits4, BitVec.toNat_ofInt]
  omega

/-- OFFSETS packs the two offsets modulo 16 (R59). -/
theorem offsetsWord_eq (a b : Int) : offsetsWord a b = BitVec.ofInt 32 (b % 16 * 16 + a % 16) := by
  rw [← bits4_toNat, ← bits4_toNat]
  exact (BitVec.ofInt_natCast ..).symm

/-- `respond(OK, v, empty)` on the CTL port adds that response and changes nothing else (R12). -/
theorem next_done_ctl {s : State} {v w : Word} (h : v = w) :
    (.next (done .ctl v s) : Host.Outcome State Fault Refusal) =
      .next { s with ports := s.ports.answer .ctl (plain .ok w) } := by
  rw [h]
  rfl

/-- Settles O25: each query only responds, and the word it responds with is the value asked for. -/
theorem queriesAnswerTheirValue : Obligations.QueriesAnswerTheirValue := by
  refine ⟨rfl, rfl, rfl, rfl, fun s => ⟨next_done_ctl ?_, next_done_ctl rfl, next_done_ctl ?_, next_done_ctl ?_⟩⟩
  · cases s.mode <;> rfl
  · exact BitVec.ofNat_toNat 32 s.cfgMult
  · exact offsetsWord_eq s.cfgOffa s.cfgOffb

end Sys2Proof.Machine
end

