-- ==== Sys2Proof/Proofs/Segments.lean ====
section
/-! PROOF. The DMA segment manager (41_dma_segment_manager.md): PollActive (R172), starting and stopping a transfer (R170, R173), the segment step (R180), the wire (R181) and the refresh tick (R186). -/

namespace Sys2Proof.Machine

open Sys2Proof.Claims

/-! ## PollActive -/

section
variable {v : Bool} {b : Nat} {e : Env}

/-- The first sample that reads the value is the last one drawn (R172). -/
theorem pollFor_of_first_hit {i : Nat} (hi : i < b) (hv : sample e i = v) (hfirst : ∀ j, j < i → sample e j ≠ v) :
    pollFor v b e = (true, dropBits e (i + 1)) := by
  induction i generalizing b e with
  | zero =>
    obtain ⟨n, rfl⟩ := Nat.exists_eq_succ_of_ne_zero (Nat.ne_of_gt hi)
    exact pollFor_hit v n e hv
  | succ i ih =>
    obtain ⟨n, rfl⟩ := Nat.exists_eq_succ_of_ne_zero (Nat.ne_of_gt (Nat.zero_lt_of_lt hi))
    have hmiss : nextBit e ≠ v := hfirst 0 (Nat.zero_lt_succ i)
    rw [Nat.succ_eq_add_one, pollFor_miss v n e hmiss]
    exact ih (Nat.lt_of_succ_lt_succ hi) hv fun j hj => hfirst (j + 1) (Nat.succ_lt_succ hj)

/-- A budget in which no sample reads the value is spent whole (R172). -/
theorem pollFor_of_no_hit (h : ∀ i, i < b → sample e i ≠ v) : pollFor v b e = (false, dropBits e b) := by
  induction b generalizing e with
  | zero => exact pollFor_zero v e
  | succ n ih =>
    have hmiss : nextBit e ≠ v := h 0 (Nat.zero_lt_succ n)
    rw [pollFor_miss v n e hmiss]
    exact ih fun i hi => h (i + 1) (Nat.succ_lt_succ hi)

/-- A hit within the budget gives a first one, which is within it too. -/
theorem pollFor_succeeds_iff : (pollFor v b e).1 = true ↔ ∃ i, i < b ∧ sample e i = v := by
  constructor
  · intro hok
    by_contra hnone
    rw [pollFor_of_no_hit fun i hi hv => hnone ⟨i, hi, hv⟩] at hok
    cases hok
  · intro h
    obtain ⟨hi, hv⟩ := Nat.find_spec h
    have hfirst : ∀ j, j < Nat.find h → sample e j ≠ v :=
      fun j hj hjv => Nat.find_min h hj ⟨Nat.lt_trans hj hi, hjv⟩
    rw [pollFor_of_first_hit hi hv hfirst]

end

/-- Settles O10: a poll stops at the first sample that reads the value, or spends its budget. -/
theorem pollActiveSamplesUpToTheBudget : Obligations.PollActiveSamplesUpToTheBudget := fun _ _ _ =>
  ⟨pollFor_succeeds_iff,
    fun _ hi hv hfirst => congrArg Prod.snd (pollFor_of_first_hit hi hv hfirst),
    fun h => congrArg Prod.snd (pollFor_of_no_hit h)⟩

/-! ## StartTransfer and StopTransfer -/

/-- Settles O11: the wait of StartTransfer and its arm draw give its three outcomes; StopTransfer is defined as its table. -/
theorem startAndStopTransfer : Obligations.StartAndStopTransfer := by
  intro d s w off
  have hpoll : startPoll s = w := rfl
  refine ⟨?_, ?_, rfl, rfl⟩
  · rw [startResult, hpoll]
    cases w.1 <;> rfl
  · rw [startTransfer, hpoll]
    cases w.1 with
    | false => rfl
    | true => cases nextBit w.2 <;> rfl

/-! ## The segment step -/

/-- The DMA agent's step is enabled by a transfer, an enabled peripheral and segments left (R180). -/
theorem dmaEnabled_iff {s : State} :
    dmaEnabled s = true ↔ s.xferDir ≠ .none ∧ s.periphEn = true ∧ 0 < s.xferRemaining := by
  simp only [dmaEnabled, Bool.and_eq_true, decide_eq_true_eq, and_assoc]

theorem dmaSegment_devToMem {s : State} (hd : s.xferDir = .devToMem) (hen : s.periphEn = true)
    (hrem : 0 < s.xferRemaining) : dmaSegment s = dmaReceive s := by
  have hdir : s.xferDir ≠ .none := by rw [hd]; decide
  rw [dmaSegment, if_pos (dmaEnabled_iff.mpr ⟨hdir, hen, hrem⟩), if_pos hd]

theorem dmaSegment_memToDev {s : State} (hd : s.xferDir = .memToDev) (hen : s.periphEn = true)
    (hrem : 0 < s.xferRemaining) : dmaSegment s = dmaTransmit s := by
  have hdir : s.xferDir ≠ .none := by rw [hd]; decide
  have hne : s.xferDir ≠ .devToMem := by rw [hd]; decide
  rw [dmaSegment, if_pos (dmaEnabled_iff.mpr ⟨hdir, hen, hrem⟩), if_neg hne]

/-- A transfer runs only on an open device (R63 item 1). -/
theorem Inv.open_of_transfer {s : State} (h : Inv s) (hd : s.xferDir ≠ .none) : s.isOpen = true := by
  by_contra hclosed
  exact hd (h.closed (Bool.eq_false_iff.mpr hclosed)).xferDir

/-- What a read returns has the length asked for and stands in memory (R82). -/
theorem holds_of_memRead {s : State} {a n : Nat} {bs : List Byte} (h : memRead s a n = some bs) :
    bs.length = n ∧ Holds s.bounce a bs := by
  obtain ⟨-, hbs⟩ := memRead_eq_some_iff.mp h
  exact ⟨Memory.readBytes_length hbs, fun _ hi => Memory.readBytes_get hbs hi⟩

/-- Settles O12: a transfer runs on an open device, so segment hw_idx can be written and read. -/
theorem dmaSegmentStep : Obligations.DmaSegmentStep := by
  refine ⟨fun s hinv hd hen hrem => ?_, fun s hinv hd hen hrem => ?_⟩
  · have haddrs := hinv.bounce_of_open (hinv.open_of_transfer (by rw [hd]; decide))
    obtain ⟨m, hwrite, -, hm⟩ := memWrite_segment haddrs hinv.hwIdx (nextBytes_length s.par.unit s.env)
    refine ⟨m, Memory.stored_of_writeBytes hm, ?_⟩
    rw [dmaSegment_devToMem hd hen hrem, dmaReceive, hwrite]
    rfl
  · have haddrs := hinv.bounce_of_open (hinv.open_of_transfer (by rw [hd]; decide))
    obtain ⟨bs, hread, hlen⟩ := memRead_segment haddrs hinv.hwIdx
    obtain ⟨-, hholds⟩ := holds_of_memRead hread
    refine ⟨bs, hlen, hholds, ?_⟩
    rw [dmaSegment_memToDev hd hen hrem, dmaTransmit, hread]
    rfl

/-! ## The wire -/

section
variable (s : State)

@[simp] theorem openDevice_txWire : (openDevice s).txWire = s.txWire := by
  unfold openDevice
  split
  · simp
  · split <;> simp

@[simp] theorem closeDevice_txWire : (closeDevice s).txWire = s.txWire := by
  unfold closeDevice
  split <;> simp

@[simp] theorem setMode_txWire (m : Mode) : (setMode m s).txWire = s.txWire := by
  rcases setMode_cases m s with ⟨-, e⟩ | ⟨-, -, e⟩ | ⟨-, -, -, e⟩ | ⟨-, -, -, -, e⟩ | ⟨-, -, -, -, e⟩ | ⟨-, -, -, -, -, e⟩ |
    ⟨-, -, -, -, -, e⟩ <;> simp [e]

@[simp] theorem readRx_txWire (nb : Bool) (n : Word) : (readRx nb n s).txWire = s.txWire := by
  unfold readRx
  split_ifs <;> simp

@[simp] theorem readWake_txWire (n : Word) : (readWake n s).txWire = s.txWire := by
  unfold readWake
  split <;> simp

@[simp] theorem writeFinish_txWire (k : Word) : (writeFinish k s).txWire = s.txWire := by
  rcases writeFinish_cases k s with ⟨-, e⟩ | ⟨-, -, e⟩ | ⟨-, -, e⟩ <;> simp [e]

@[simp] theorem writeTx_txWire (data : List Byte) : (writeTx data s).txWire = s.txWire := by
  unfold writeTx
  split <;> simp

@[simp] theorem flushRx_txWire : (flushRx s).txWire = s.txWire := by
  unfold flushRx
  split <;> simp

@[simp] theorem refresh_txWire : (refresh s).txWire = s.txWire := by
  unfold refresh
  split_ifs <;> simp

end

/-- A handled completion sends nothing: a TX completion fills memory, not the wire (R205). -/
theorem dispatchOne_txWire {s t : State} (h : dispatchOne s = .next t) : t.txWire = s.txWire := by
  unfold dispatchOne at h
  split at h
  · rcases rxComplete_cases h with ⟨-, -, bs, -, rfl⟩ | ⟨-, rfl⟩ <;> simp
  · rcases txComplete_cases h with ⟨-, -, m, -, rfl⟩ | ⟨-, rfl⟩ <;> simp


/-- No command and no event sends on the wire (R181). -/
theorem exec_txWire {i : Instr} {s t : State} (h : exec i s = .next t) : t.txWire = s.txWire := by
  cases i with
  | openDev => cases h; exact openDevice_txWire s
  | closeDev => cases h; exact closeDevice_txWire s
  | setMode m => cases h; exact setMode_txWire s m
  | read nb n => cases h; exact readRx_txWire s nb n
  | write data => cases h; exact writeTx_txWire s data
  | flush => cases h; exact flushRx_txWire s
  | refreshTick => cases h; exact refresh_txWire s
  | cancel => cases h; exact interruptRead_txWire s
  | segDone =>
    rw [exec, execSegDone] at h
    split at h
    · exact dispatchOne_txWire h
    · cases h; rfl
  | getMode | getUnit | getMult | getOffs => cases h; rfl
  | setMult | setOffs | poll | getStat => cases h; split <;> rfl

/-- Settles O52: of a segment step's cases only the MemToDev one appends to the wire, and it appends what it read. -/
theorem wireGrowsByWholeSegments : Obligations.WireGrowsByWholeSegments := by
  refine ⟨fun _ _ _ => exec_txWire, fun n s => readWake_txWire s n, fun s t h => ?_⟩
  rcases dmaSegment_cases h with ⟨-, rfl⟩ | ⟨-, -, m, -, rfl⟩ | ⟨-, hd, bs, hread, rfl⟩
  · exact .inl rfl
  · exact .inl rfl
  · obtain ⟨hlen, hholds⟩ := holds_of_memRead hread
    exact .inr ⟨hd, bs, hlen, hholds, rfl⟩

/-! ## The refresh tick -/

/-- With no transfer, or far from exhaustion, a tick draws nothing (R186). -/
theorem refresh_not_due {s : State} (h : s.xferDir = .none ∨ s.par.refreshThreshold < s.xferRemaining) : refresh s = s := by
  unfold refresh
  rcases h with hnone | habove
  · rw [if_pos hnone]
  · rw [if_pos habove, ite_self]

/-- Near exhaustion a tick polls for a re-arm, and only a success sets the remaining count (R186). -/
theorem refresh_due {s : State} (h : ¬ (s.xferDir = .none ∨ s.par.refreshThreshold < s.xferRemaining)) :
    refresh s = { s with
      env := (refreshPoll s).2
      xferRemaining := if (refreshPoll s).1 then s.par.xferLen else s.xferRemaining } := by
  obtain ⟨hdir, hnear⟩ := not_or.mp h
  rw [refresh, if_neg hdir, if_neg hnear]
  cases (refreshPoll s).1 <;> rfl

/-- Settles O16: a tick that is not due changes nothing, and one that is due polls. -/
theorem refreshTickReArms : Obligations.RefreshTickReArms := by
  refine ⟨by decide, fun s => congrArg Host.Outcome.next ?_⟩
  split
  · next h => exact refresh_not_due h
  · next h => exact refresh_due h

end Sys2Proof.Machine
end

