-- ==== Sys2Proof/Proofs/Dispatcher.lean ====
section
/-! PROOF. The completion dispatcher (42_completion_dispatcher.md): what a completion moves between a queue and its segment, and what it drops (R200 to R207); with the contents of a queue after a push and a pop (43_stream_queues.md R233, R234). -/

namespace Sys2Proof.Machine

open Sys2Proof.Claims

/-! ## The contents of a queue after a push and a pop -/

section
variable {cap : Nat} {store : List Byte} {pos k : Nat}

/-- A cursor may stand past the end of the store: only its remainder counts. -/
theorem ringRead_mod_pos : ringRead cap store (pos % cap) k = ringRead cap store pos k := by
  simp only [ringRead, Nat.mod_add_mod]

theorem ringWrite_mod_pos {bs : List Byte} : ringWrite cap store (pos % cap) bs = ringWrite cap store pos bs := by
  induction bs generalizing store pos with
  | nil => rfl
  | cons b bs ih =>
    rw [ringWrite, ringWrite, Nat.mod_mod, ← ih (pos := pos % cap + 1), Nat.mod_add_mod, ih]

theorem ringRead_take (m : Nat) : (ringRead cap store pos k).take m = ringRead cap store pos (min m k) := by
  rw [ringRead, ringRead, ← List.map_take, List.take_range]

theorem ringRead_add (m : Nat) :
    ringRead cap store pos (m + k) = ringRead cap store pos m ++ ringRead cap store (pos + m) k := by
  simp only [ringRead, List.range_add, List.map_append, List.map_map, Function.comp_def, Nat.add_assoc]

/-- Within one lap of the store, different distances from a cursor are different cells. -/
theorem ring_cell_ne {i : Nat} (hi : i < k) (hk : k < cap) : (pos + k) % cap ≠ (pos + i) % cap := fun h =>
  Nat.ne_of_gt hi (Nat.ModEq.eq_of_lt_of_lt (Nat.ModEq.add_left_cancel' pos h) hk (Nat.lt_trans hi hk))

/-- A byte stored at the end of a run within one lap is read behind it, and the run is read as before. -/
theorem ringRead_set_end (hstore : store.length = cap) (hk : k < cap) (b : Byte) :
    ringRead cap (store.set ((pos + k) % cap) b) pos (k + 1) = ringRead cap store pos k ++ [b] := by
  have hcell : (pos + k) % cap < store.length := by
    rw [hstore]
    exact Nat.mod_lt _ (Nat.zero_lt_of_lt hk)
  have hrun : ringRead cap (store.set ((pos + k) % cap) b) pos k = ringRead cap store pos k :=
    List.map_congr_left fun i hi => by
      simp only [List.getD_eq_getElem?_getD, List.getElem?_set_ne (ring_cell_ne (List.mem_range.mp hi) hk)]
  rw [ringRead_add, hrun]
  simp [ringRead, hcell]

/-- Bytes written behind a run, all within one lap, are read behind it. -/
theorem ringRead_ringWrite (hstore : store.length = cap) {bs : List Byte} (hfit : k + bs.length ≤ cap) :
    ringRead cap (ringWrite cap store (pos + k) bs) pos (k + bs.length) = ringRead cap store pos k ++ bs := by
  induction bs generalizing store k with
  | nil => simp [ringWrite]
  | cons b bs ih =>
    rw [List.length_cons, Nat.add_comm bs.length, ← Nat.add_assoc] at hfit ⊢
    have hk : k < cap := by omega
    rw [ringWrite, Nat.add_assoc pos, ih (by rw [List.length_set, hstore]) hfit, ringRead_set_end hstore hk,
      List.append_assoc, List.singleton_append]

end

/-- QueuePop returns the front of the contents (R234). -/
theorem popBytes_eq_take (cap : Nat) (q : Queue) (m : Nat) : popBytes cap q m = (contents cap q).take m :=
  (ringRead_take m).symm

/-- QueuePop removes from the contents the bytes it returns (R234). -/
theorem contents_queuePop (cap : Nat) (q : Queue) (m : Nat) :
    contents cap (queuePop cap q m) = (contents cap q).drop m := by
  have hsplit : popBytes cap q m ++ contents cap (queuePop cap q m) = contents cap q := by
    rw [contents, contents, popBytes, queuePop, ringRead_mod_pos, ← ringRead_add, Nat.add_sub_cancel' (Nat.min_le_right ..)]
  refine List.append_cancel_left (hsplit.trans ?_)
  rw [popBytes_eq_take, List.take_append_drop]

/-- QueuePush appends to the contents the bytes that fit (R233). -/
theorem contents_queuePush {cap : Nat} {q : Queue} (h : QueueOk cap q) (b : List Byte) :
    contents cap (queuePush cap q b) = contents cap q ++ b.take (pushCount cap q b.length) := by
  have hlen : (b.take (pushCount cap q b.length)).length = pushCount cap q b.length :=
    List.length_take_of_le (Nat.min_le_left ..)
  have hfit : q.count + pushCount cap q b.length ≤ cap := (h.push b).count
  rcases Nat.eq_zero_or_pos cap with rfl | hcap
  · have hnone : pushCount 0 q b.length = 0 := by omega
    have hempty : q.count = 0 := by omega
    simp [contents, queuePush, hnone, hempty, ringRead]
  · have hread := ringRead_ringWrite (pos := q.rd) h.store (hlen.symm ▸ hfit)
    rw [hlen] at hread
    rw [contents, queuePush, h.wr hcap, ringWrite_mod_pos, hread, contents]

/-- QueuePush accepts the whole of a run that fits (R233). -/
theorem contents_queuePush_of_fits {cap : Nat} {q : Queue} (h : QueueOk cap q) {b : List Byte}
    (hfit : q.count + b.length ≤ cap) : contents cap (queuePush cap q b) = contents cap q ++ b := by
  have hall : pushCount cap q b.length = b.length := Nat.min_eq_left (Nat.le_sub_of_add_le' hfit)
  rw [contents_queuePush h, hall, List.take_length]

/-! ## The branches of a completion -/

section
variable {s : State}

/-- A SEG_DONE with a completion posted in a DevToMem transfer is one RX completion (R200). -/
theorem exec_segDone_devToMem (hd : s.xferDir = .devToMem) (hp : 0 < s.pending) :
    exec .segDone s = rxComplete { s with pending := s.pending - 1 } := by
  rw [exec, execSegDone, if_pos hp, dispatchOne, if_pos hd]

/-- A SEG_DONE with a completion posted in a MemToDev transfer is one TX completion (R200). -/
theorem exec_segDone_memToDev (hd : s.xferDir = .memToDev) (hp : 0 < s.pending) :
    exec .segDone s = txComplete { s with pending := s.pending - 1 } := by
  have hne : s.xferDir ≠ .devToMem := by rw [hd]; decide
  rw [exec, execSegDone, if_pos hp, dispatchOne, if_neg hne]

/-- A completion is contended when CONTENTION_DROP is set and its draw says so (R202, R205). -/
theorem contended_iff : contended s = true ↔ s.par.contentionDrop = true ∧ nextBit s.env = true := by
  rw [contended, Bool.and_eq_true]

theorem rxHasRoom_iff : rxHasRoom s = true ↔ s.rx.count + s.par.unit ≤ s.cap := decide_eq_true_iff

theorem txHasUnit_iff : txHasUnit s = true ↔ s.par.unit ≤ s.tx.count := decide_eq_true_iff

/-- The contention draw uses up one bit, and only if there is a draw (R202, R205). -/
theorem contentionDrawn_of_env (s : State) : contentionDrawn s = { s with env := afterContention s.par s.env } := by
  unfold contentionDrawn afterContention
  split <;> rfl

theorem rxComplete_of_move (hc : ¬ contended s = true) (hr : rxHasRoom s = true) :
    rxComplete s = rxMove (contentionDrawn (reArm s)) := by
  simp [rxComplete, hc, hr]

theorem rxComplete_of_drop (h : contended s = true ∨ ¬ rxHasRoom s = true) :
    rxComplete s = .next (rxFinish (countDrop (contentionDrawn (reArm s)))) := by
  rcases h with h | h <;> simp [rxComplete, h]

theorem txComplete_of_move (hc : ¬ contended (txRestartCheck s) = true) (hu : txHasUnit s = true) :
    txComplete s = txMove (contentionDrawn (txRestartCheck s)) := by
  simp [txComplete, hc, hu]

theorem txComplete_of_drop (h : contended (txRestartCheck s) = true ∨ ¬ txHasUnit s = true) :
    txComplete s = .next (txFinish (countDrop (contentionDrawn (txRestartCheck s)))) := by
  rcases h with h | h <;> simp [txComplete, h]

/-! ## The move of a whole segment -/

/-- The bounce memory of an open sound state holds a segment for every index, so the RX path reads one and pushes it (R202). -/
theorem rxMove_of_bounce (haddrs : s.bounce.map Prod.fst = bounceAddrs s.par) (hseg : 0 < s.par.nSeg) :
    ∃ bs, bs.length = s.par.unit ∧ Holds s.bounce (segAddr s.par (rxSegment s)) bs ∧
      rxMove s = .next (rxFinish { s with rx := queuePush s.cap s.rx bs }) := by
  have hidx : rxSegment s < s.par.nSeg := Nat.mod_lt _ hseg
  obtain ⟨bs, hread, hlen⟩ := memRead_segment haddrs hidx
  exact ⟨bs, hlen, (holds_of_memRead hread).2, by rw [rxMove, hread]⟩

/-- With a unit queued, the TX path stores the queue's first unit in a segment of an open sound state's bounce memory and pops it (R205). -/
theorem txMove_of_bounce (haddrs : s.bounce.map Prod.fst = bounceAddrs s.par) (hseg : 0 < s.par.nSeg)
    (hunit : s.par.unit ≤ s.tx.count) :
    ∃ m, Stored s.bounce m (segAddr s.par (txSegment s)) ((contents s.cap s.tx).take s.par.unit) ∧
      txMove s = .next (txFinish { s with bounce := m, tx := queuePop s.cap s.tx s.par.unit }) := by
  have hidx : txSegment s < s.par.nSeg := Nat.mod_lt _ hseg
  have hlen : (popBytes s.cap s.tx s.par.unit).length = s.par.unit := by
    rw [popBytes_length, Nat.min_eq_left hunit]
  obtain ⟨m, hwrite, -, hm⟩ := memWrite_segment haddrs hidx hlen
  rw [← popBytes_eq_take]
  exact ⟨m, Memory.stored_of_writeBytes hm, by rw [txMove, hwrite]⟩

end

/-- The bounce bytes of a sound state with a transfer running are those of the region (R63, R81). -/
theorem Inv.bounce_of_transfer {s : State} (h : Inv s) (hd : s.xferDir ≠ .none) :
    s.bounce.map Prod.fst = bounceAddrs s.par :=
  h.bounce_of_open (h.open_of_transfer hd)

theorem Inv.nSeg_pos {s : State} (h : Inv s) : 0 < s.par.nSeg := Nat.zero_lt_of_lt h.hwIdx

/-! ## The receive path -/

/-- The state after ReArm and the contention draw (R202). -/
theorem contentionDrawn_reArm (s : State) : contentionDrawn (reArm s) =
    { s with env := afterContention s.par s.env, xferRemaining := s.par.xferLen } := contentionDrawn_of_env (reArm s)

section
variable {s : State}

/-- An RX completion with no contention and room for a unit pushes the segment R201 selects. -/
theorem rxComplete_moves (haddrs : s.bounce.map Prod.fst = bounceAddrs s.par) (hseg : 0 < s.par.nSeg)
    (hrx : QueueOk s.cap s.rx) (hc : ¬ (s.par.contentionDrop = true ∧ nextBit s.env = true))
    (hroom : s.rx.count + s.par.unit ≤ s.cap) :
    ∃ bs q, bs.length = s.par.unit ∧ Holds s.bounce (segAddr s.par (rxSegment s)) bs ∧
      QueueOk s.cap q ∧ contents s.cap q = contents s.cap s.rx ++ bs ∧
      rxComplete s = .next (rxFinish { s with
        env := afterContention s.par s.env, xferRemaining := s.par.xferLen, rx := q }) := by
  obtain ⟨bs, hlen, hholds, hmove⟩ := rxMove_of_bounce (s := contentionDrawn (reArm s)) (by simpa) (by simpa)
  rw [contentionDrawn_reArm] at hholds hmove hlen
  have hfit : s.rx.count + bs.length ≤ s.cap := by rwa [hlen]
  refine ⟨bs, queuePush s.cap s.rx bs, hlen, hholds, hrx.push bs, contents_queuePush_of_fits hrx hfit, ?_⟩
  rw [rxComplete_of_move (contended_iff.not.mpr hc) (rxHasRoom_iff.mpr hroom), contentionDrawn_reArm, hmove]

/-- An RX completion with contention, or with less room than a unit, only counts a drop. -/
theorem rxComplete_drops
    (h : (s.par.contentionDrop = true ∧ nextBit s.env = true) ∨ s.cap < s.rx.count + s.par.unit) :
    rxComplete s = .next (rxFinish (countDrop { s with
      env := afterContention s.par s.env, xferRemaining := s.par.xferLen })) := by
  have hdrop := h.imp contended_iff.mpr fun hfull => rxHasRoom_iff.not.mpr (Nat.not_le.mpr hfull)
  rw [rxComplete_of_drop hdrop, contentionDrawn_reArm]

end

/-- Settles O13: the segment R201 selects is read whole and pushed whole, or the drop branch is taken. -/
theorem rxCompletion : Obligations.RxCompletion := by
  refine ⟨fun s hinv hd hp hc hroom => ?_, fun s hd hp h => ?_⟩
  · have haddrs := hinv.bounce_of_transfer (by rw [hd]; decide)
    rw [exec_segDone_devToMem hd hp]
    exact rxComplete_moves (s := { s with pending := s.pending - 1 }) haddrs hinv.nSeg_pos hinv.rx hc hroom
  · rw [exec_segDone_devToMem hd hp]
    exact rxComplete_drops (s := { s with pending := s.pending - 1 }) h

/-! ## The transmit path -/

/-- The state after TxRestartCheck and the contention draw (R188, R205). -/
theorem contentionDrawn_txRestartCheck (s : State) : contentionDrawn (txRestartCheck s) =
    { txRestartCheck s with env := afterContention s.par (dropBit s.env) } := by
  simp only [contentionDrawn_of_env, txRestartCheck_par, txRestartCheck_env]

/-- The restart check as the statements write it out (R188). -/
theorem afterRestartCheck_eq (s : State) : afterRestartCheck s = txRestartCheck s := by
  unfold afterRestartCheck txRestartCheck
  split <;> rfl

/-- The restart check neither reads nor writes the pending count. -/
theorem txRestartCheck_of_pending (s : State) (n : Nat) :
    txRestartCheck { s with pending := n } = { txRestartCheck s with pending := n } := by
  unfold txRestartCheck
  split <;> rfl

section
variable {s : State}

/-- The contention draw of a TX completion is the one behind its ACTIVE sample (R188, R205). -/
theorem contended_txRestartCheck_iff :
    contended (txRestartCheck s) = true ↔ s.par.contentionDrop = true ∧ nextBit (dropBit s.env) = true := by
  rw [contended_iff, txRestartCheck_par, txRestartCheck_env]

/-- A TX completion with no contention and a unit queued stores the unit in the segment R201 selects. -/
theorem txComplete_moves (haddrs : s.bounce.map Prod.fst = bounceAddrs s.par) (hseg : 0 < s.par.nSeg)
    (htx : QueueOk s.cap s.tx) (hc : ¬ (s.par.contentionDrop = true ∧ nextBit (dropBit s.env) = true))
    (hunit : s.par.unit ≤ s.tx.count) :
    ∃ m q, Stored s.bounce m (segAddr s.par (txSegment s)) ((contents s.cap s.tx).take s.par.unit) ∧
      QueueOk s.cap q ∧ contents s.cap q = (contents s.cap s.tx).drop s.par.unit ∧
      txComplete s = .next (txFinish { txRestartCheck s with
        env := afterContention s.par (dropBit s.env), bounce := m, tx := q }) := by
  obtain ⟨m, hstored, hmove⟩ :=
    txMove_of_bounce (s := contentionDrawn (txRestartCheck s)) (by simpa) (by simpa) (by simpa)
  refine ⟨m, queuePop s.cap s.tx s.par.unit, by simpa [txSegment] using hstored, htx.pop s.par.unit,
    contents_queuePop s.cap s.tx s.par.unit, ?_⟩
  rw [txComplete_of_move (contended_txRestartCheck_iff.not.mpr hc) (txHasUnit_iff.mpr hunit), hmove]
  simp [contentionDrawn_txRestartCheck]

/-- A TX completion with contention, or with less than a unit queued, only counts a drop behind its restart check. -/
theorem txComplete_drops
    (h : (s.par.contentionDrop = true ∧ nextBit (dropBit s.env) = true) ∨ s.tx.count < s.par.unit) :
    txComplete s = .next (txFinish (countDrop { txRestartCheck s with env := afterContention s.par (dropBit s.env) })) := by
  have hdrop := h.imp contended_txRestartCheck_iff.mpr fun hshort => txHasUnit_iff.not.mpr (Nat.not_le.mpr hshort)
  rw [txComplete_of_drop hdrop, contentionDrawn_txRestartCheck]

end

/-- Settles O14: the queue's first unit is popped whole into the segment R201 selects, or the drop branch is taken. -/
theorem txCompletion : Obligations.TxCompletion := by
  refine ⟨fun s hinv hd hp hc hunit => ?_, fun s hd hp h => ?_⟩
  · have haddrs := hinv.bounce_of_transfer (by rw [hd]; decide)
    obtain ⟨m, q, hstored, hq, hcontents, hnext⟩ :=
      txComplete_moves (s := { s with pending := s.pending - 1 }) haddrs hinv.nSeg_pos hinv.tx hc hunit
    refine ⟨m, q, hstored, hq, hcontents, ?_⟩
    rw [exec_segDone_memToDev hd hp, hnext, afterRestartCheck_eq, txRestartCheck_of_pending]
    simp [txFinish, notify]
  · rw [exec_segDone_memToDev hd hp, txComplete_drops (s := { s with pending := s.pending - 1 }) h, afterRestartCheck_eq,
      txRestartCheck_of_pending]
    simp [txFinish, countDrop, notify]

end Sys2Proof.Machine
end

