-- ==== Sys2Proof/Proofs/Queue.lean ====
section
/-! PROOF. The stream queues (43_stream_queues.md): what each primitive does to the contents (R231, R232), and what a run of pushes and pops keeps (R239). -/

namespace Sys2Proof.Machine

open Sys2Proof.Claims

/-- A queue that counts no byte has empty contents (R232). -/
theorem contents_eq_nil_of_count {cap : Nat} {q : Queue} (h : q.count = 0) : contents cap q = [] :=
  List.eq_nil_of_length_eq_zero ((contents_length cap q).trans h)

/-- Settles O39: each clause is the law of its primitive. -/
theorem queuePushAppendsPopTakesTheFront : Obligations.QueuePushAppendsPopTakesTheFront := fun cap q hq =>
  ⟨fun b => ⟨hq.push b, queuePush_count cap q b, contents_queuePush hq b⟩,
    fun m => ⟨hq.pop m, popBytes_length cap q m, popBytes_eq_take cap q m, contents_queuePop cap q m⟩,
    hq.reset, contents_eq_nil_of_count (queueReset_count q), hq.dropAll, contents_eq_nil_of_count (queueDropAll_count q)⟩

/-- What QueuePop returns, followed by what it leaves queued, is what was queued (R239). -/
theorem popBytes_append_contents_queuePop (cap : Nat) (q : Queue) (m : Nat) :
    popBytes cap q m ++ contents cap (queuePop cap q m) = contents cap q := by
  rw [popBytes_eq_take, contents_queuePop, List.take_append_drop]

/-- Every run of pushes and pops keeps a queue sound (R231). -/
theorem QueueOk.runQueue {cap : Nat} {q : Queue} (h : QueueOk cap q) (ops : List QueueOp) :
    QueueOk cap (runQueue cap q ops).1 := by
  induction ops generalizing q with
  | nil => exact h
  | cons op ops ih =>
    cases op with
    | push b => exact ih (h.push b)
    | pop m => exact ih (h.pop m)

/-- What was queued, then what a run's pushes accepted, is what its pops returned, then what is still queued (R239). -/
theorem contents_append_accepted {cap : Nat} {q : Queue} (h : QueueOk cap q) (ops : List QueueOp) :
    contents cap q ++ (runQueue cap q ops).2.1 = (runQueue cap q ops).2.2 ++ contents cap (runQueue cap q ops).1 := by
  induction ops generalizing q with
  | nil => simp [runQueue]
  | cons op ops ih =>
    cases op with
    | push b =>
      have hrun := ih (h.push b)
      rw [contents_queuePush h, List.append_assoc] at hrun
      exact hrun
    | pop m =>
      rw [runQueue, ← popBytes_append_contents_queuePop cap q m, List.append_assoc, List.append_assoc, ih (h.pop m)]

/-- Settles O40: the bytes are conserved by induction over the run, and the counts are the lengths of the same bytes. -/
theorem queueConservesBytes : Obligations.QueueConservesBytes := by
  intro cap q ops hq
  have hbytes := contents_append_accepted hq ops
  have hcounts := congrArg List.length hbytes
  simp only [List.length_append, contents_length] at hcounts
  exact ⟨hbytes, (Nat.add_comm ..).trans hcounts.symm, hq.runQueue ops⟩

end Sys2Proof.Machine
end

