-- ==== Sys2Proof/Proofs/Notification.lean ====
section
/-! PROOF. Blocking and notification (44_notification.md): when NOTIFY pulses (R261), the wake of a blocked READ (R265), and CANCEL (R266). -/

namespace Sys2Proof.Machine

open Sys2Proof.Claims

/-! ## CANCEL -/

section
variable {s : State}

theorem interruptRead_of_free (h : s.rdBlocked = none) : interruptRead s = s := by
  rw [interruptRead, h]

theorem interruptRead_of_blocked {n : Word} (h : s.rdBlocked = some n) :
    interruptRead s = { s with rdBlocked := none, ports := s.ports.answer .rd (plain .interrupted 0) } := by
  rw [interruptRead, h]
  rfl

end

/-- Settles O17: CANCEL is the interruption of the READ that holds the RD port, if one does. -/
theorem cancelEndsTheBlockedRead : Obligations.CancelEndsTheBlockedRead := by
  refine ⟨by decide, fun s => congrArg Host.Outcome.next ?_⟩
  split
  · next hfree => exact interruptRead_of_free hfree
  · next hblocked => exact interruptRead_of_blocked hblocked

/-! ## READ_WAKE -/

/-- A settled turn is its agent's step, the turn being used up (R345). -/
theorem step_of_turn {s : State} {g : Agent} {ts : List Agent} (hp : paramsLegal s.par = true) (ht : s.env.turns = g :: ts) :
    step s = runAgent g { s with env := { s.env with turns := ts } } := by
  have hagent : nextAgent s.env = g := by rw [nextAgent, ht]
  have hturn : dropTurn s.env = { s.env with turns := ts } := by rw [dropTurn, ht]
  rw [step_legal hp, turnTaken, hagent, hturn]

/-- The pop of a READ clears `readable` exactly when it asks for all that is queued (R281). -/
theorem readableAfterPop_queuePop (n : Nat) (s : State) :
    readableAfterPop { s with rx := queuePop s.cap s.rx n } = if s.rx.count ≤ n then false else s.readable := by
  have hempty : s.rx.count - min n s.rx.count = 0 ↔ s.rx.count ≤ n := by omega
  rw [readableAfterPop, queuePop_count]
  exact if_congr hempty rfl rfl

/-- What taking bytes from RX changes: the queue, `readable`, and the response with the oldest bytes (R280, R281). -/
theorem takeRx_eq (n : Word) (s : State) :
    takeRx n s = { s with
      rx := queuePop s.cap s.rx n.toNat
      readable := if s.rx.count ≤ n.toNat then false else s.readable
      ports := s.ports.answer .rd { status := .ok, value := BitVec.ofNat 32 (min n.toNat s.rx.count),
                                    data := (contents s.cap s.rx).take n.toNat } } := by
  rw [takeRx, popBytes_length, popBytes_eq_take, readableAfterPop_queuePop]
  rfl

/-- Settles O32: the turn of HOST_RD is READ_WAKE, which takes from RX once the READ is no longer blocked. -/
theorem blockedReadWakes : Obligations.BlockedReadWakes := by
  intro n s ts hp ht hblocked hrx
  refine ⟨queuePop s.cap s.rx n.toNat, contents_queuePop s.cap s.rx n.toNat, ?_⟩
  rw [step_of_turn hp ht]
  simp only [runAgent, runRd, hblocked, readWake, hrx, if_true, takeRx_eq]

/-! ## NOTIFY -/

section
variable (s : State)

theorem openDevice_notifyCount : (openDevice s).notifyCount = s.notifyCount := by
  unfold openDevice
  split_ifs <;> simp

theorem closeDevice_notifyCount : (closeDevice s).notifyCount = s.notifyCount := by
  unfold closeDevice
  split <;> simp

theorem readRx_notifyCount (nb : Bool) (n : Word) : (readRx nb n s).notifyCount = s.notifyCount := by
  unfold readRx
  split_ifs <;> simp

theorem readWake_notifyCount (n : Word) : (readWake n s).notifyCount = s.notifyCount := by
  unfold readWake
  split <;> simp

theorem writeTx_notifyCount (data : List Byte) : (writeTx data s).notifyCount = s.notifyCount := by
  unfold writeTx
  split
  · simp
  · rcases writeFinish_cases (BitVec.ofNat 32 (pushCount s.cap s.tx data.length)) (writePush data s) with
      ⟨-, e⟩ | ⟨-, -, e⟩ | ⟨-, -, e⟩ <;> simp [e]

theorem flushRx_notifyCount : (flushRx s).notifyCount = s.notifyCount := by
  unfold flushRx
  split <;> simp

theorem refresh_notifyCount : (refresh s).notifyCount = s.notifyCount := by
  unfold refresh
  split_ifs <;> simp

end

section
variable {s t : State}

/-- No segment step pulses: only its completion does, once handled (R261). -/
theorem dmaSegment_notifyCount (h : dmaSegment s = .next t) : t.notifyCount = s.notifyCount := by
  rcases dmaSegment_cases h with ⟨-, rfl⟩ | ⟨-, -, m, -, rfl⟩ | ⟨-, -, bs, -, rfl⟩ <;> simp

/-- A handled completion pulses once, whether its segment is moved or dropped (R261). -/
theorem dispatchOne_notifyCount (h : dispatchOne s = .next t) : t.notifyCount = s.notifyCount + 1 := by
  unfold dispatchOne at h
  split at h
  · rcases rxComplete_cases h with ⟨-, -, bs, -, rfl⟩ | ⟨-, rfl⟩ <;> simp
  · rcases txComplete_cases h with ⟨-, -, m, -, rfl⟩ | ⟨-, rfl⟩ <;> simp

/-- SEG_DONE pulses exactly when a completion is posted (R261, R304). -/
theorem execSegDone_notifyCount (h : execSegDone s = .next t) :
    t.notifyCount = s.notifyCount + if 0 < s.pending then 1 else 0 := by
  unfold execSegDone at h
  split at h
  · next hposted => rw [dispatchOne_notifyCount h, if_pos hposted]
  · next hidle => cases h; rw [if_neg hidle, Nat.add_zero]

/-- SET_MODE pulses exactly when it enters Tx (R152, R261). -/
theorem setMode_notifyCount (m : Mode) (s : State) :
    (setMode m s).notifyCount = s.notifyCount +
      if m = .tx ∧ s.isOpen = true ∧ s.mode ≠ .tx ∧ stopQuiesced s = true then 1 else 0 := by
  rcases setMode_cases m s with ⟨hclosed, e⟩ | ⟨-, hm, e⟩ | ⟨-, -, hq, e⟩ | ⟨-, -, -, hm, e⟩ | ⟨ho, hm, hq, htx, e⟩ |
    ⟨-, -, -, hm, -, e⟩ | ⟨-, -, -, hm, -, e⟩
  · simp [e, hclosed]
  · rw [e, done_notifyCount, if_neg (fun ⟨htx, _, hne, _⟩ => hne (hm.symm.trans htx)), Nat.add_zero]
  · simp [e, hq]
  · subst hm
    simp [e]
  · subst htx
    simp [e, ho, hm.symm, hq]
  · rcases hm with rfl | rfl <;> simp [e]
  · rcases hm with rfl | rfl <;> simp [e]

/-- No other command or event pulses (R261). -/
theorem exec_notifyCount_of_quiet {i : Instr} (hseg : i ≠ .segDone) (hmode : ∀ m, i ≠ .setMode m)
    (h : exec i s = .next t) : t.notifyCount = s.notifyCount := by
  cases i with
  | segDone => exact absurd rfl hseg
  | setMode m => exact absurd rfl (hmode m)
  | openDev => cases h; exact openDevice_notifyCount s
  | closeDev => cases h; exact closeDevice_notifyCount s
  | read nb n => cases h; exact readRx_notifyCount s nb n
  | write data => cases h; exact writeTx_notifyCount s data
  | flush => cases h; exact flushRx_notifyCount s
  | refreshTick => cases h; exact refresh_notifyCount s
  | cancel => cases h; exact interruptRead_notifyCount s
  | getMode | getUnit | getMult | getOffs => cases h; rfl
  | setMult | setOffs | poll | getStat => cases h; split <;> rfl

end

/-- Settles O51: SEG_DONE and SET_MODE each pulse under their own condition, and nothing else does. -/
theorem notifyPulsesExactly : Obligations.NotifyPulsesExactly := by
  refine ⟨fun i s t h => ?_, fun _ _ => dmaSegment_notifyCount, fun n s => readWake_notifyCount s n⟩
  by_cases hseg : i = .segDone
  · subst hseg
    simpa using execSegDone_notifyCount h
  · by_cases hmode : ∃ m, i = .setMode m
    · obtain ⟨m, rfl⟩ := hmode
      cases h
      simpa using setMode_notifyCount m s
    · rw [not_exists] at hmode
      simpa [hseg, hmode] using exec_notifyCount_of_quiet hseg hmode h

end Sys2Proof.Machine
end

/-! PROOF. The host interface (45_host_interface.md): the configuration commands and the register map (R293 to R298), READ, WRITE, FLUSH and POLL (R280 to R290), OPEN and CLOSE (R300, R302), and the geometry that is fixed in between (R301). -/

namespace Sys2Proof.Machine

open Sys2Proof.Claims

/-! ## SET_MULT and SET_OFFS -/

theorem not_multLegal_iff {v : BitVec 8} : ¬ multLegal v = true ↔ v.toNat < 2 ∨ 32 < v.toNat := by
  rw [multLegal_iff]
  omega

/-- Settles O26: SET_MULT branches on the range check, whose failure is the statement's condition. -/
theorem setMultWritesLegalValues : Obligations.SetMultWritesLegalValues :=
  ⟨by decide, fun _ _ => congrArg Host.Outcome.next ((ite_not ..).symm.trans (if_congr not_multLegal_iff rfl rfl))⟩

theorem not_offsetsAccepted_iff {p : Params} {a b : Int} :
    ¬ offsetsAccepted p a b = true ↔ a < -1 ∨ a > 4 ∨ b < -1 ∨ b > 4 ∨ (a, b) ∉ p.offsLegal := by
  simp only [offsetsAccepted_iff, not_and_or, not_le, or_assoc, gt_iff_lt]

/-- The default OFFS_LEGAL in arithmetic (R8). -/
theorem mem_distinctOffsets {a b : Int} :
    (a, b) ∈ distinctOffsets ↔ -1 ≤ a ∧ a ≤ 4 ∧ -1 ≤ b ∧ b ≤ 4 ∧ a ≠ b := by
  simp [distinctOffsets, mem_offsRange, and_assoc]

/-- Settles O27: SET_OFFS branches on the check of the pair, whose failure is the statement's condition. -/
theorem setOffsWritesLegalPairs : Obligations.SetOffsWritesLegalPairs :=
  ⟨by decide,
    fun _ _ _ => congrArg Host.Outcome.next ((ite_not ..).symm.trans (if_congr not_offsetsAccepted_iff rfl rfl)),
    fun _ _ => mem_distinctOffsets⟩

/-! ## GET_STAT -/

/-- The MODE register holds the code of the mode (R13, R55). -/
theorem ofNat_code_eq (m : Mode) :
    BitVec.ofNat 32 m.code = (match m with | .idle => 0 | .rx0 => 1 | .rx1 => 2 | .tx => 3) := by
  cases m <;> rfl

section
variable (s : State) {i : BitVec 4}

/-- Indices 0xA to 0xF are reserved (R62). -/
theorem csr_of_reserved (h : i.toNat ≥ 0xA) : csr s i = none := by
  obtain ⟨⟨n, hn⟩⟩ := i
  change n ≥ 0xA at h
  interval_cases n <;> rfl

/-- Each of the indices 0x0 to 0x9 names one register (R54). -/
theorem csr_of_assigned (h : ¬ i.toNat ≥ 0xA) : csr s i = some
    (if i = 0x0 then BitVec.ofNat 32 s.mode.code
     else if i = 0x1 then statusWord s
     else if i = 0x2 then BitVec.ofNat 32 s.par.unit
     else if i = 0x3 then s.cfgMult.setWidth 32
     else if i = 0x4 then BitVec.ofInt 32 ((s.cfgOffb % 16) * 16 + s.cfgOffa % 16)
     else if i = 0x5 then s.completed
     else if i = 0x6 then s.dropped
     else if i = 0x7 then BitVec.ofNat 32 s.rx.count
     else if i = 0x8 then BitVec.ofNat 32 s.tx.count
     else BitVec.ofNat 32 s.cap) := by
  rw [← offsetsWord_eq, ← BitVec.ofNat_toNat]
  obtain ⟨⟨n, hn⟩⟩ := i
  have hlt : n < 0xA := Nat.lt_of_not_le h
  interval_cases n <;> rfl

end

/-- Settles O28: a reserved index names no register, and at any other GET_STAT answers the register named. -/
theorem getStatReadsTheRegisterMap : Obligations.GetStatReadsTheRegisterMap := by
  refine ⟨by decide, fun i s => ?_⟩
  by_cases hi : i.toNat ≥ 0xA
  · rw [exec, execGetStat, csr_of_reserved s hi, if_pos hi]
    rfl
  · rw [exec, execGetStat, csr_of_assigned s hi, ofNat_code_eq, if_neg hi]
    rfl

/-! ## POLL -/

/-- Each bit of the mask has the weight of its position, both read from RX (R289, R290). -/
theorem pollMask_eq (s : State) :
    pollMask s = BitVec.ofNat 32 ((if 0 < s.rx.count then 1 else 0) + (if s.rx.count < s.cap then 2 else 0)) := by
  unfold pollMask
  by_cases hr : 0 < s.rx.count <;> by_cases hw : s.rx.count < s.cap <;> simp only [hr, hw] <;> rfl

/-- Settles O30: POLL answers its mask on an open device. -/
theorem pollReadsTheRxQueue : Obligations.PollReadsTheRxQueue := by
  refine ⟨by decide, fun s => ?_⟩
  rw [exec, execPoll, pollMask_eq]
  split <;> rfl

/-! ## READ -/

section
variable {nb : Bool} {n : Word} {s : State}

theorem readRx_of_queued (ho : s.isOpen = true) (hn : n ≠ 0) (hrx : 0 < s.rx.count) : readRx nb n s = takeRx n s := by
  rw [readRx, if_neg (by simp [ho]), if_neg hn, if_pos hrx]

/-- With nothing to take, the queue is left alone (R282, R283, R264). -/
theorem readRx_of_nothing (h : s.isOpen = false ∨ n = 0 ∨ s.rx.count = 0) :
    readRx nb n s =
      if s.isOpen = false then raise .rd .notOpen s
      else if n = 0 ∨ nb = true then done .rd 0 s
      else { s with rdBlocked := some n } := by
  unfold readRx
  split_ifs <;> simp_all

end

/-- Settles O31: READ pops the queue if there is something to take, and otherwise leaves it alone. -/
theorem readTakesTheOldestBytes : Obligations.ReadTakesTheOldestBytes := by
  refine ⟨by decide, by decide, fun nb n s ho hn hrx => ?_, fun _ _ _ h => congrArg Host.Outcome.next (readRx_of_nothing h)⟩
  refine ⟨queuePop s.cap s.rx n.toNat, contents_queuePop s.cap s.rx n.toNat, rfl, rfl, congrArg Host.Outcome.next ?_⟩
  rw [readRx_of_queued ho hn hrx, takeRx_eq]

/-! ## WRITE and FLUSH -/

/-- The lazy start is due in mode Tx with bytes queued and no transfer running (R286). -/
theorem lazyStartDue_iff {s : State} : lazyStartDue s = true ↔ s.mode = .tx ∧ s.xferDir = .none ∧ 0 < s.tx.count := by
  simp only [lazyStartDue, Bool.and_eq_true, decide_eq_true_eq, and_assoc]

/-- StartTransfer neither reads nor writes the TX queue and its flag. -/
theorem startTransfer_of_tx_writeable (d : Dir) (s : State) (q : Queue) (w : Bool) :
    startTransfer d { s with tx := q, writeable := w } = { startTransfer d s with tx := q, writeable := w } := by
  have hpoll : startPoll { s with tx := q, writeable := w } = startPoll s := rfl
  unfold startTransfer
  rw [hpoll]
  split
  · split <;> rfl
  · rfl

theorem writeTx_of_open {s : State} (ho : s.isOpen = true) (data : List Byte) :
    writeTx data s = writeFinish (BitVec.ofNat 32 (pushCount s.cap s.tx data.length)) (writePush data s) :=
  if_neg (by simp [ho])

/-- Settles O33: the push decides the count and the flag, and the start does not read what the push changed. -/
theorem writeQueuesAndStarts : Obligations.WriteQueuesAndStarts := by
  refine ⟨by decide, fun data s h => congrArg Host.Outcome.next (if_pos h), ?_⟩
  intro data s ho hq k w u
  refine ⟨queuePush s.cap s.tx data, hq.push data, contents_queuePush hq data, congrArg Host.Outcome.next ?_⟩
  have hdue : lazyStartDue (writePush data s) = true ↔ s.mode = .tx ∧ s.xferDir = .none ∧ 0 < s.tx.count + k :=
    lazyStartDue_iff
  have hresult : startResult (writePush data s) = startResult s := rfl
  have hstart : startTransfer .memToDev (writePush data s) = { u with tx := queuePush s.cap s.tx data, writeable := w } :=
    startTransfer_of_tx_writeable .memToDev s _ _
  rw [writeTx_of_open ho, writeFinish, ite_not, hresult, hstart]
  refine if_congr hdue (if_congr Iff.rfl ?_ ?_) rfl
  · simp [done, respond, plain, u, k, pushCount]
  · simp [respond, enterIdle, plain, u, k, pushCount]

/-- Settles O34: FLUSH is defined as its two cases. -/
theorem flushDropsTheRxQueue : Obligations.FlushDropsTheRxQueue := ⟨by decide, fun _ => rfl⟩

/-! ## OPEN and CLOSE -/

/-- Settles O35: each outcome of OPEN is the statement's, with new queues and one drawn byte per address of the region. -/
theorem openInitialisesTheEngine : Obligations.OpenInitialisesTheEngine := by
  refine ⟨by decide, fun s => ⟨queueNew (s.cfgMult.toNat * s.par.unit), queueNew (s.cfgMult.toNat * s.par.unit),
    Memory.cells s.par.bounceBase (nextBytes (bounceSize s.par) (dropBit s.env)), congrArg Host.Outcome.next ?_, ?_, ?_⟩⟩
  · unfold openDevice
    split
    · rfl
    · cases nextBit s.env <;> rfl
  · rintro q (rfl | rfl) <;> exact ⟨rfl, rfl, rfl, (QueueOk.new _).store⟩
  · rw [Memory.cells_addrs, nextBytes_length]
    rfl

section
variable {s : State}

theorem openDevice_of_open (h : s.isOpen = true) : openDevice s = raise .ctl .deviceBusy s := if_pos h

theorem closeDevice_of_closed (h : s.isOpen = false) : closeDevice s = raise .ctl .notOpen s := if_pos h

theorem closeDevice_of_open (h : s.isOpen = true) : closeDevice s =
    raise .ctl (if stopQuiesced s then .ok else .deviceBusy) (releaseState (interruptRead (stopTransfer s))) :=
  if_neg (by simp [h])

end

/-- Only a READ that was blocked is answered when it is ended (R266, R302). -/
theorem interruptRead_ports (s : State) : (interruptRead s).ports =
    match s.rdBlocked with | none => s.ports | some _ => s.ports.answer .rd (plain .interrupted 0) := by
  unfold interruptRead
  cases s.rdBlocked <;> rfl

/-- Settles O36: the stop and the interruption come before the release, and only the status tells whether the stop quiesced. -/
theorem closeReleasesTheEngine : Obligations.CloseReleasesTheEngine := by
  refine ⟨by decide, fun s => ⟨fun h => congrArg Host.Outcome.next (closeDevice_of_closed h),
    fun h => congrArg Host.Outcome.next ?_⟩⟩
  rw [closeDevice_of_open h, interruptRead_eq, interruptRead_ports]
  rfl

/-! ## The geometry -/

/-- What R301 fixes between OPEN and CLOSE: the capacity, the size of the bounce region, that the device is open, and which bounce bytes exist. -/
def geometry (s : State) : Nat × Nat × Bool × List Nat :=
  (s.cap, s.par.nSeg * s.par.unit, s.isOpen, s.bounce.map Prod.fst)

section
variable (s : State)

theorem setMode_geometry (m : Mode) : geometry (setMode m s) = geometry s := by
  rcases setMode_cases m s with ⟨-, e⟩ | ⟨-, -, e⟩ | ⟨-, -, -, e⟩ | ⟨-, -, -, -, e⟩ | ⟨-, -, -, -, e⟩ | ⟨-, -, -, -, -, e⟩ |
    ⟨-, -, -, -, -, e⟩ <;> simp [e, geometry]

theorem readRx_geometry (nb : Bool) (n : Word) : geometry (readRx nb n s) = geometry s := by
  unfold readRx
  split_ifs <;> rfl

theorem writeFinish_geometry (k : Word) : geometry (writeFinish k s) = geometry s := by
  rcases writeFinish_cases k s with ⟨-, e⟩ | ⟨-, -, e⟩ | ⟨-, -, e⟩ <;> simp [e, geometry]

theorem writeTx_geometry (data : List Byte) : geometry (writeTx data s) = geometry s := by
  unfold writeTx
  split
  · rfl
  · exact writeFinish_geometry (writePush data s) _

theorem flushRx_geometry : geometry (flushRx s) = geometry s := by
  unfold flushRx
  split <;> rfl

theorem refresh_geometry : geometry (refresh s) = geometry s := by
  unfold refresh
  split_ifs <;> rfl

theorem interruptRead_geometry : geometry (interruptRead s) = geometry s := by
  rw [interruptRead_eq]
  rfl

end

section
variable {s t : State}

/-- A handled completion stores into bounce bytes that exist (R205, R82). -/
theorem dispatchOne_geometry (h : dispatchOne s = .next t) : geometry t = geometry s := by
  unfold dispatchOne at h
  split at h
  · rcases rxComplete_cases h with ⟨-, -, bs, -, rfl⟩ | ⟨-, rfl⟩ <;> simp [geometry]
  · rcases txComplete_cases h with ⟨-, -, m, hm, rfl⟩ | ⟨-, rfl⟩
    · simpa [geometry] using Memory.writeBytes_addrs hm
    · simp [geometry]

/-- No command and no event but CLOSE and an OPEN of a closed device changes the geometry (R301). -/
theorem exec_geometry {i : Instr} (h : exec i s = .next t) (hclose : i ≠ .closeDev)
    (hopen : i = .openDev → s.isOpen = true) : geometry t = geometry s := by
  cases i with
  | closeDev => exact absurd rfl hclose
  | openDev =>
    cases h
    rw [openDevice_of_open (hopen rfl)]
    rfl
  | setMode m => cases h; exact setMode_geometry s m
  | read nb n => cases h; exact readRx_geometry s nb n
  | write data => cases h; exact writeTx_geometry s data
  | flush => cases h; exact flushRx_geometry s
  | refreshTick => cases h; exact refresh_geometry s
  | cancel => cases h; exact interruptRead_geometry s
  | segDone =>
    rw [exec, execSegDone] at h
    split at h
    · exact dispatchOne_geometry h
    · cases h; rfl
  | getMode | getUnit | getMult | getOffs => cases h; rfl
  | setMult | setOffs | poll | getStat => cases h; split <;> rfl

end

/-- Settles O49: the geometry is the four facts of the statement. -/
theorem geometryIsFixedWhileOpen : Obligations.GeometryIsFixedWhileOpen := by
  intro i s t h hclose hopen
  have hgeometry := exec_geometry h hclose hopen
  simpa only [geometry, Prod.mk.injEq] using hgeometry

end Sys2Proof.Machine

/-! PROOF. Responses (30_encoding.md R121, 60_exceptions.md R340): the response word of each status, and the bytes a port sends. -/

namespace Sys2Proof.Machine

open Sys2Proof.Claims

/-- Every status code fits the first byte of the response word, so the other three are zeros (R121, R340). -/
theorem wordBytes_statusCode (st : Status) :
    wordBytes (BitVec.ofNat 32 st.code) = [BitVec.ofNat 8 st.code, 0, 0, 0] := by
  cases st <;> decide

theorem Response.bytes_eq (r : Response) :
    r.bytes = [BitVec.ofNat 8 r.status.code, 0, 0, 0] ++ wordBytes r.value ++ r.data := by
  rw [Response.bytes, wordBytes_statusCode]

/-- Settles O54: the bytes are those of `Response.bytes_eq`, and each status has its code of R340. -/
theorem responseWordsAndStatusCodes : Obligations.ResponseWordsAndStatusCodes := by
  intro st v d
  have hbytes := Response.bytes_eq { status := st, value := v, data := d }
  cases st <;> exact hbytes

end Sys2Proof.Machine

/-! PROOF. The decoder and the encoder are inverse (30_encoding.md sections 2 to 4): every well-formed instruction decodes from its encoding, and whatever decodes was sent as its encoding. -/

namespace Sys2Proof.Machine

open Sys2Proof.Claims

/-! ## What an instruction's word and tail are made of -/

/-- The row of R115 an instruction belongs to. -/
def opcode : Instr → Opcode
  | .openDev => .openDev
  | .closeDev => .closeDev
  | .getMode => .getMode
  | .setMode _ => .setMode
  | .getUnit => .getUnit
  | .getMult => .getMult
  | .setMult _ => .setMult
  | .getOffs => .getOffs
  | .setOffs _ _ => .setOffs
  | .poll => .poll
  | .getStat _ => .getStat
  | .read _ _ => .read
  | .write _ => .write
  | .flush => .write
  | .segDone => .segDone
  | .refreshTick => .refreshTick
  | .cancel => .cancel

/-- The width of a format's argument field, from bit 0 up (R113). -/
def argumentWidth : Format → Nat
  | .n => 0
  | .m => 2
  | .v => 8
  | .o => 8
  | .i => 4
  | .r => 1
  | .w => 1
  | .e => 0

/-- What follows a legal word, by its opcode and CW[0] (R116). -/
def followOf (o : Opcode) (bit0 : Bool) : Follow :=
  match o with
  | .read => .lengthWord
  | .write => if bit0 then .nothing else .lengthAndData
  | _ => .nothing

theorem opField_of_opcodeOf {cw : Word} {o : Opcode} (h : opcodeOf (opField cw) = some o) :
    opField cw = BitVec.ofNat 8 o.number := by
  rw [number_of_opcodeOf h, BitVec.ofNat_toNat, BitVec.setWidth_eq]

/-- On its own port a word's opcode and CW[0] decide what follows (R115, R116). -/
theorem follow_of_opcodeOf {cw : Word} {o : Opcode} (h : opcodeOf (opField cw) = some o) :
    follow o.port cw = followOf o (cw.getLsbD 0) := by
  have hop := opField_of_opcodeOf h
  cases o with
  | read => exact follow_read nofun hop
  | write =>
    cases hbit : cw.getLsbD 0 with
    | false => exact follow_write nofun hop hbit
    | true => exact follow_other (by rw [hop]; decide) (by simp [hbit])
  | _ => exact follow_other (by rw [hop]; decide) (by rw [hop]; exact fun e => absurd e.1 (by decide))

/-! ## Decoding an encoding -/

theorem legalWord : ∀ i : Instr, Laws.LegalWord.Statement i
  | .openDev => Laws.LegalWord.openDev
  | .closeDev => Laws.LegalWord.closeDev
  | .getMode => Laws.LegalWord.getMode
  | .setMode m => Laws.LegalWord.setMode m
  | .getUnit => Laws.LegalWord.getUnit
  | .getMult => Laws.LegalWord.getMult
  | .setMult v => Laws.LegalWord.setMult v
  | .getOffs => Laws.LegalWord.getOffs
  | .setOffs a b => Laws.LegalWord.setOffs a b
  | .poll => Laws.LegalWord.poll
  | .getStat i => Laws.LegalWord.getStat i
  | .read nb n => Laws.LegalWord.read nb n
  | .write data => Laws.LegalWord.write data
  | .flush => Laws.LegalWord.flush
  | .segDone => Laws.LegalWord.segDone
  | .refreshTick => Laws.LegalWord.refreshTick
  | .cancel => Laws.LegalWord.cancel

/-- An instruction's word carries its opcode over a 24-bit argument (R112). -/
theorem encodeWord_eq_commandWord (i : Instr) : ∃ arg, arg < 2 ^ 24 ∧ encodeWord i = commandWord (opcode i) arg := by
  cases i with
  | setMode m => exact ⟨m.code, by cases m <;> decide, rfl⟩
  | setMult v => exact ⟨v.toNat, Nat.lt_of_lt_of_le v.isLt (by decide), rfl⟩
  | setOffs a b =>
    have ha := (bits4 a).isLt
    have hb := (bits4 b).isLt
    exact ⟨(bits4 b).toNat * 16 + (bits4 a).toNat, by omega, rfl⟩
  | getStat j => exact ⟨j.toNat, Nat.lt_of_lt_of_le j.isLt (by decide), rfl⟩
  | read nb n => exact ⟨nb.toNat, by cases nb <;> decide, rfl⟩
  | flush => exact ⟨1, by decide, rfl⟩
  | openDev | closeDev | getMode | getUnit | getMult | getOffs | poll | write | segDone | refreshTick | cancel =>
    exact ⟨0, by decide, rfl⟩

theorem opcodeOf_encodeWord (i : Instr) : opcodeOf (opField (encodeWord i)) = some (opcode i) := by
  obtain ⟨arg, hlt, hword⟩ := encodeWord_eq_commandWord i
  rw [hword, opcodeOf_commandWord _ arg hlt]

theorem opcode_port (i : Instr) : (opcode i).port = i.port := by cases i <;> rfl

/-- Fields below bit 24 of a command word are those of its argument (R112). -/
theorem commandWord_extractLsb' (o : Opcode) {arg start len : Nat} (h : arg < 2 ^ 24) (hfit : start + len ≤ 24) :
    (commandWord o arg).extractLsb' start len = (BitVec.ofNat 32 arg).extractLsb' start len := by
  apply BitVec.eq_of_getLsbD_eq
  intro j hj
  rw [BitVec.getLsbD_extractLsb', BitVec.getLsbD_extractLsb', commandWord_getLsbD o arg _ h (by omega)]

theorem ofNat_offsetFields (x y : BitVec 4) :
    (BitVec.ofNat 32 (y.toNat * 16 + x.toNat)).extractLsb' 0 4 = x ∧
      (BitVec.ofNat 32 (y.toNat * 16 + x.toNat)).extractLsb' 4 4 = y := by
  revert x y
  decide

/-- A value that fits the field is read back from its 4-bit pattern (R114). -/
theorem bits4_toInt {x : Int} (h : fitsSigned4 x) : (bits4 x).toInt = x := by
  obtain ⟨hlo, hhi⟩ := h
  rw [bits4, BitVec.toInt_ofInt]
  exact Int.bmod_eq_of_le (by norm_num; omega) (by norm_num; omega)

/-- The length word an instruction is sent with, 0 where it has none (R110). -/
def lengthWord : Instr → Word
  | .read _ n => n
  | .write data => BitVec.ofNat 32 data.length
  | _ => 0

/-- The data bytes an instruction is sent with (R110). -/
def dataBytes : Instr → List Byte
  | .write data => data
  | _ => []

theorem encodeWord_read_bit0 (nb : Bool) (n : Word) : (encodeWord (.read nb n)).getLsbD 0 = nb := by
  rw [encodeWord]
  cases nb <;> decide

theorem encodeWord_write_bit0 (data : List Byte) : (encodeWord (.write data)).getLsbD 0 = false := by
  rw [encodeWord]
  decide

/-- The operands of an instruction are assembled from its own word, its length word and its data (R114). -/
theorem assemble_encodeWord (i : Instr) (h : i.wellFormed = true) :
    assemble (opcode i) (encodeWord i) (lengthWord i) (dataBytes i) = i := by
  cases i with
  | setMode m => cases m <;> rfl
  | setMult v =>
    have hfield : (BitVec.ofNat 32 v.toNat).extractLsb' 0 8 = v := by
      clear h
      revert v
      decide
    exact congrArg Instr.setMult
      ((commandWord_extractLsb' _ (Nat.lt_of_lt_of_le v.isLt (by decide)) (by decide)).trans hfield)
  | setOffs a b =>
    rw [Instr.wellFormed, Bool.and_eq_true, decide_eq_true_eq, decide_eq_true_eq] at h
    obtain ⟨ha, hb⟩ := h
    have hlt : (bits4 b).toNat * 16 + (bits4 a).toNat < 2 ^ 24 := by
      have := (bits4 a).isLt
      have := (bits4 b).isLt
      omega
    obtain ⟨hfielda, hfieldb⟩ := ofNat_offsetFields (bits4 a) (bits4 b)
    rw [opcode, assemble, encodeWord, commandWord_extractLsb' _ hlt (by decide), hfielda, bits4_toInt ha,
      commandWord_extractLsb' _ hlt (by decide), hfieldb, bits4_toInt hb]
  | getStat j =>
    have hfield : (BitVec.ofNat 32 j.toNat).extractLsb' 0 4 = j := by
      clear h
      revert j
      decide
    exact congrArg Instr.getStat
      ((commandWord_extractLsb' _ (Nat.lt_of_lt_of_le j.isLt (by decide)) (by decide)).trans hfield)
  | read nb n => rw [opcode, assemble, encodeWord_read_bit0, lengthWord]
  | write data => rw [opcode, assemble, encodeWord_write_bit0, if_neg Bool.false_ne_true, dataBytes]
  | openDev | closeDev | getMode | getUnit | getMult | getOffs | poll | flush | segDone | refreshTick | cancel => rfl

/-- An instruction's word decodes to it on its own port, with its own length word and data (R117). -/
theorem decodeWord_encodeWord {i : Instr} (h : i.wellFormed = true) :
    decodeWord i.port (encodeWord i) (lengthWord i) (dataBytes i) = .ok i := by
  obtain ⟨o, ho, hport, hreserved⟩ := legalWord i
  have hop : opcode i = o := Option.some.inj ((opcodeOf_encodeWord i).symm.trans ho)
  subst hop
  exact (decodeWord_eq_ok_iff ho).mpr ⟨⟨hport, hreserved⟩, assemble_encodeWord i h⟩

theorem follow_encodeWord (i : Instr) : follow i.port (encodeWord i) = followOf (opcode i) ((encodeWord i).getLsbD 0) := by
  rw [← opcode_port, follow_of_opcodeOf (opcodeOf_encodeWord i)]

/-- Settles O1: the word decodes, and what follows it is what R116 has its opcode and CW[0] announce. -/
theorem decodeOfEncodeIsTheInstruction : Obligations.DecodeOfEncodeIsTheInstruction := by
  intro i rest hi
  have hword := decodeWord_encodeWord hi
  have hfollow := follow_encodeWord i
  rw [encode, List.append_assoc]
  cases i with
  | read nb n =>
    exact (decodeBytes_lengthWord hfollow n rest).trans (congrArg (fetched · rest) hword)
  | write data =>
    have hlen : data.length = (BitVec.ofNat 32 data.length).toNat :=
      (Nat.mod_eq_of_lt (of_decide_eq_true hi)).symm
    rw [encodeWord_write_bit0] at hfollow
    rw [encodeTail, List.append_assoc]
    exact (decodeBytes_lengthAndData hfollow hlen rest).trans (congrArg (fetched · rest) hword)
  | _ => exact (decodeBytes_word hfollow rest).trans (congrArg (fetched · rest) hword)

/-! ## Encoding what was decoded -/

/-- A word is its opcode byte and its low 24 bits (R112). -/
theorem eq_of_opField_argument {v w : Word} (hop : opField v = opField w) (harg : v &&& 0x00FFFFFF#32 = w &&& 0x00FFFFFF#32) :
    v = w := by
  have hmask : ∀ j < 24, (0x00FFFFFF#32).getLsbD j = true := by decide
  apply BitVec.eq_of_getLsbD_eq
  intro j hj
  by_cases h24 : j < 24
  · have hbit := congrArg (BitVec.getLsbD · j) harg
    simpa only [BitVec.getLsbD_and, hmask j h24, Bool.and_true] using hbit
  · have hbit := congrArg (BitVec.getLsbD · (j - 24)) hop
    have hfield : j - 24 < 8 := by omega
    simpa only [opField, BitVec.getLsbD_extractLsb', hfield, decide_true, Bool.true_and,
      Nat.add_sub_cancel' (Nat.le_of_not_lt h24)] using hbit

/-- Below bit 24 a format reserves exactly the bits above its argument field (R113). -/
theorem reserved_getLsbD (f : Format) {j : Nat} (hj : j < 24) (hw : argumentWidth f ≤ j) : f.reserved.getLsbD j = true := by
  have hall : ∀ j, j < 24 → argumentWidth f ≤ j → f.reserved.getLsbD j = true := by cases f <;> decide
  exact hall j hj hw

/-- The argument field of a word whose reserved bits are zero is its bits below 24. -/
theorem argument_of_reserved {cw : Word} {f : Format} (hr : cw &&& f.reserved = 0) :
    BitVec.ofNat 32 (cw.extractLsb' 0 (argumentWidth f)).toNat = cw &&& 0x00FFFFFF#32 := by
  have hmask : ∀ j < 32, (0x00FFFFFF#32).getLsbD j = decide (j < 24) := by decide
  have hwidth : argumentWidth f ≤ 24 := by cases f <;> decide
  apply BitVec.eq_of_getLsbD_eq
  intro j hj
  rw [BitVec.ofNat_toNat, BitVec.getLsbD_setWidth, BitVec.getLsbD_extractLsb', BitVec.getLsbD_and, hmask j hj]
  by_cases h24 : j < 24
  · by_cases hw : j < argumentWidth f
    · simp [hj, h24, hw]
    · have hzero := congrArg (BitVec.getLsbD · j) hr
      rw [BitVec.getLsbD_and, reserved_getLsbD f h24 (Nat.le_of_not_lt hw), Bool.and_true] at hzero
      simp [hw, hzero]
  · have hw : ¬ j < argumentWidth f := by omega
    simp [h24, hw]

/-- A word with its format's reserved bits zero is its opcode over its argument field (R112, R119). -/
theorem eq_commandWord_of_legal {cw : Word} {o : Opcode} (ho : opcodeOf (opField cw) = some o)
    (hr : cw &&& o.format.reserved = 0) :
    commandWord o (cw.extractLsb' 0 (argumentWidth o.format)).toNat = cw := by
  have hlt : (cw.extractLsb' 0 (argumentWidth o.format)).toNat < 2 ^ 24 :=
    Nat.lt_of_lt_of_le (BitVec.isLt _) (Nat.pow_le_pow_right (by decide) (by cases o <;> decide))
  have hargument := commandWord_argument o _ hlt
  rw [argument_of_reserved hr] at hargument
  have hop : opField (commandWord o (cw.extractLsb' 0 (argumentWidth o.format)).toNat) = opField cw := by
    rw [opField_commandWord o _ hlt, opField_of_opcodeOf ho]
  exact eq_of_opField_argument hop hargument

theorem extractLsb'_bit0 (cw : Word) : (cw.extractLsb' 0 1).toNat = (cw.getLsbD 0).toNat := by
  rw [BitVec.extractLsb'_toNat, Nat.shiftRight_zero, BitVec.getLsbD, Nat.toNat_testBit, pow_zero, Nat.div_one, pow_one]

/-- The encoder puts back the argument field that the operands were assembled from. -/
theorem encodeWord_assemble {cw lw : Word} {data : List Byte} {o : Opcode} (ho : opcodeOf (opField cw) = some o)
    (hr : cw &&& o.format.reserved = 0) : encodeWord (assemble o cw lw data) = cw := by
  refine Eq.trans ?_ (eq_commandWord_of_legal ho hr)
  cases o with
  | setMode =>
    have hcode : ∀ c : BitVec 2, (modeOfCode c).code = c.toNat := by decide
    exact congrArg (commandWord .setMode) (hcode _)
  | setOffs =>
    refine congrArg (commandWord .setOffs) ?_
    simp only [bits4, BitVec.ofInt_toInt, BitVec.extractLsb'_toNat, Opcode.format, argumentWidth, Nat.shiftRight_eq_div_pow]
    omega
  | read => exact congrArg (commandWord .read) (extractLsb'_bit0 cw).symm
  | write =>
    rw [Opcode.format, argumentWidth, extractLsb'_bit0, assemble]
    cases cw.getLsbD 0 <;> rfl
  | setMult | getStat => rfl
  | openDev | closeDev | getMode | getUnit | getMult | getOffs | poll | segDone | refreshTick | cancel =>
    exact congrArg (commandWord _) (BitVec.toNat_zero_length _).symm

theorem assemble_port (o : Opcode) (cw lw : Word) (data : List Byte) : (assemble o cw lw data).port = o.port := by
  cases o with
  | write =>
    rw [assemble]
    split <;> rfl
  | _ => rfl

/-- Operands assembled from fields fit their fields; the data must be no longer than its length word can say (R114). -/
theorem assemble_wellFormed (o : Opcode) (cw lw : Word) {data : List Byte} (h : data.length < 2 ^ 32) :
    (assemble o cw lw data).wellFormed = true := by
  cases o with
  | setOffs =>
    have hfits : ∀ x : BitVec 4, fitsSigned4 x.toInt := by decide
    rw [assemble, Instr.wellFormed, Bool.and_eq_true, decide_eq_true_eq, decide_eq_true_eq]
    exact ⟨hfits _, hfits _⟩
  | write =>
    rw [assemble]
    split
    · rfl
    · exact decide_eq_true h
  | _ => rfl

theorem fetched_eq_instr_iff {d : Except Reject Instr} {r rest : List Byte} {i : Instr} :
    fetched d r = .instr i rest ↔ d = .ok i ∧ r = rest := by
  cases d <;> simp [fetched]

/-- A decoded word has an assigned opcode, on that opcode's port with the reserved bits zero, and its operands are assembled from it (R117). -/
theorem decodeWord_ok {p : Port} {cw lw : Word} {data : List Byte} {i : Instr} (h : decodeWord p cw lw data = .ok i) :
    ∃ o, opcodeOf (opField cw) = some o ∧ o.port = p ∧ cw &&& o.format.reserved = 0 ∧ assemble o cw lw data = i := by
  cases ho : opcodeOf (opField cw) with
  | none =>
    obtain ⟨why, hwhy⟩ := decodeWord_of_opcodeOf_none (p := p) (lw := lw) (data := data) ho
    rw [hwhy] at h
    cases h
  | some o =>
    obtain ⟨⟨hport, hreserved⟩, hi⟩ := (decodeWord_eq_ok_iff ho).mp h
    exact ⟨o, rfl, hport, hreserved, hi⟩

/-- The bytes behind a command word, by what R116 says follows it. -/
def tailOf (f : Follow) (lw : Word) (data : List Byte) : List Byte :=
  match f with
  | .nothing => []
  | .lengthWord => wordBytes lw
  | .lengthAndData => wordBytes (BitVec.ofNat 32 data.length) ++ data

/-- What the decoder consumed of a stream: a legal word, and behind it what R116 has its opcode and CW[0] announce. -/
theorem decodeBytes_instr {p : Port} {bytes rest : List Byte} {i : Instr} (h : decodeBytes p bytes = .instr i rest) :
    ∃ cw lw data, bytes = wordBytes cw ++ (tailOf (follow p cw) lw data ++ rest) ∧ decodeWord p cw lw data = .ok i ∧
      data.length < 2 ^ 32 := by
  rw [decodeBytes] at h
  split at h
  · cases h
  · next cw r1 hcw =>
    obtain rfl := takeWord_some hcw
    split at h
    · next hfollow =>
      obtain ⟨hword, rfl⟩ := fetched_eq_instr_iff.mp h
      exact ⟨cw, 0, [], by rw [hfollow]; rfl, hword, by decide⟩
    · next hfollow =>
      split at h
      · cases h
      · next lw r2 hlw =>
        obtain rfl := takeWord_some hlw
        obtain ⟨hword, rfl⟩ := fetched_eq_instr_iff.mp h
        exact ⟨cw, lw, [], by rw [hfollow]; rfl, hword, by decide⟩
    · next hfollow =>
      split at h
      · cases h
      · next lw r2 hlw =>
        obtain rfl := takeWord_some hlw
        split at h
        · cases h
        · next hwhole =>
          obtain ⟨hword, rfl⟩ := fetched_eq_instr_iff.mp h
          have hlen : (r2.take lw.toNat).length = lw.toNat := List.length_take_of_le (Nat.le_of_not_lt hwhole)
          refine ⟨cw, lw, r2.take lw.toNat, ?_, hword, by rw [hlen]; exact lw.isLt⟩
          rw [hfollow, tailOf, hlen, BitVec.ofNat_toNat, BitVec.setWidth_eq, List.append_assoc, List.take_append_drop]

/-- What follows a word of an opcode is the tail of the instruction assembled from it (R110, R116). -/
theorem tailOf_followOf (o : Opcode) (cw lw : Word) (data : List Byte) :
    tailOf (followOf o (cw.getLsbD 0)) lw data = encodeTail (assemble o cw lw data) := by
  cases o with
  | write =>
    rw [followOf, assemble]
    cases cw.getLsbD 0 <;> rfl
  | _ => rfl

/-- Settles O2: the word is the encoding of what was assembled from it, and what R116 announces behind it is the encoding's tail. -/
theorem decodedStreamIsTheEncoding : Obligations.DecodedStreamIsTheEncoding := by
  intro p bytes rest i h
  obtain ⟨cw, lw, data, rfl, hword, hlen⟩ := decodeBytes_instr h
  obtain ⟨o, ho, rfl, hreserved, rfl⟩ := decodeWord_ok hword
  refine ⟨assemble_wellFormed o cw lw hlen, assemble_port o cw lw data, ?_⟩
  rw [encode, encodeWord_assemble ho hreserved, List.append_assoc, follow_of_opcodeOf ho, tailOf_followOf]

end Sys2Proof.Machine

/-! PROOF. What each command, event, wake and segment step leaves alone, one record equation per operation, and what follows for a step (20_memory.md R87): the parameters (00_scope.md R8) and the form of memory (20_memory.md R81) are kept. -/

namespace Sys2Proof.Machine

/-! ## The record equations -/

section
variable (s : State)

/-- SET_MODE leaves the configuration, the capacity, RX with `readable`, the bounce bytes, a blocked READ and the wire alone (R159). -/
theorem setMode_eq (m : Mode) : setMode m s = { s with
    env := (setMode m s).env, ports := (setMode m s).ports, mode := (setMode m s).mode, sel := (setMode m s).sel
    tx := (setMode m s).tx, writeable := (setMode m s).writeable, notifyCount := (setMode m s).notifyCount
    completed := (setMode m s).completed, dropped := (setMode m s).dropped, deadlineMiss := (setMode m s).deadlineMiss
    xferDir := (setMode m s).xferDir, hwIdx := (setMode m s).hwIdx, pending := (setMode m s).pending
    periphEn := (setMode m s).periphEn, periphDir := (setMode m s).periphDir
    xferRemaining := (setMode m s).xferRemaining } := by
  rcases setMode_cases m s with ⟨-, e⟩ | ⟨-, -, e⟩ | ⟨-, -, -, e⟩ | ⟨-, -, -, -, e⟩ | ⟨-, -, -, -, e⟩ | ⟨-, -, -, -, -, e⟩ |
    ⟨-, -, -, -, -, e⟩ <;> simp [e, State.ext_iff]

/-- WRITE's end leaves the configuration, the queues with their flags, the bounce bytes, a blocked READ, NOTIFY and the wire alone (R286). -/
theorem writeFinish_eq (k : Word) : writeFinish k s = { s with
    env := (writeFinish k s).env, ports := (writeFinish k s).ports, mode := (writeFinish k s).mode
    sel := (writeFinish k s).sel, completed := (writeFinish k s).completed, dropped := (writeFinish k s).dropped
    deadlineMiss := (writeFinish k s).deadlineMiss, xferDir := (writeFinish k s).xferDir
    hwIdx := (writeFinish k s).hwIdx, pending := (writeFinish k s).pending, periphEn := (writeFinish k s).periphEn
    periphDir := (writeFinish k s).periphDir, xferRemaining := (writeFinish k s).xferRemaining } := by
  rcases writeFinish_cases k s with ⟨-, e⟩ | ⟨-, -, e⟩ | ⟨-, -, e⟩ <;> simp [e, State.ext_iff]

/-- WRITE leaves the configuration, the capacity, RX with `readable`, the bounce bytes, a blocked READ, NOTIFY and the wire alone (R284). -/
theorem writeTx_eq (data : List Byte) : writeTx data s = { s with
    env := (writeTx data s).env, ports := (writeTx data s).ports, mode := (writeTx data s).mode
    sel := (writeTx data s).sel, tx := (writeTx data s).tx, writeable := (writeTx data s).writeable
    completed := (writeTx data s).completed, dropped := (writeTx data s).dropped
    deadlineMiss := (writeTx data s).deadlineMiss, xferDir := (writeTx data s).xferDir
    hwIdx := (writeTx data s).hwIdx, pending := (writeTx data s).pending, periphEn := (writeTx data s).periphEn
    periphDir := (writeTx data s).periphDir, xferRemaining := (writeTx data s).xferRemaining } := by
  unfold writeTx
  split
  · rfl
  · rw [writeFinish_eq]
    rfl

/-- READ touches RX with `readable`, the responses and what blocks, and nothing else (R280). -/
theorem readRx_eq (nb : Bool) (n : Word) : readRx nb n s = { s with
    ports := (readRx nb n s).ports, rx := (readRx nb n s).rx, readable := (readRx nb n s).readable
    rdBlocked := (readRx nb n s).rdBlocked } := by
  unfold readRx
  split_ifs <;> rfl

/-- READ_WAKE touches what READ does (R265). -/
theorem readWake_eq (n : Word) : readWake n s = { s with
    ports := (readWake n s).ports, rx := (readWake n s).rx, readable := (readWake n s).readable
    rdBlocked := (readWake n s).rdBlocked } := by
  unfold readWake
  split <;> rfl

/-- FLUSH touches RX with `readable` and the responses (R288). -/
theorem flushRx_eq : flushRx s = { s with
    ports := (flushRx s).ports, rx := (flushRx s).rx, readable := (flushRx s).readable } := by
  unfold flushRx
  split <;> rfl

/-- REFRESH_TICK touches the draws and the remaining count (R186). -/
theorem refresh_eq : refresh s = { s with env := (refresh s).env, xferRemaining := (refresh s).xferRemaining } := by
  unfold refresh
  split_ifs <;> rfl

end

section
variable {s t : State}

/-- A handled completion leaves the mode, the configuration, the capacity, the ports, a blocked READ, the transfer's direction and index, and the wire alone (R202, R205). -/
theorem dispatchOne_eq (h : dispatchOne s = .next t) : t = { s with
    env := t.env, rx := t.rx, tx := t.tx, bounce := t.bounce, completed := t.completed, dropped := t.dropped
    readable := t.readable, writeable := t.writeable, notifyCount := t.notifyCount, pending := t.pending
    periphEn := t.periphEn, periphDir := t.periphDir, xferRemaining := t.xferRemaining } := by
  unfold dispatchOne at h
  split at h
  · rcases rxComplete_cases h with ⟨-, -, bs, -, rfl⟩ | ⟨-, rfl⟩ <;> simp [State.ext_iff]
  · rcases txComplete_cases h with ⟨-, -, m, -, rfl⟩ | ⟨-, rfl⟩ <;> simp [State.ext_iff]

/-- SEG_DONE leaves alone what a handled completion does (R200). -/
theorem execSegDone_eq (h : execSegDone s = .next t) : t = { s with
    env := t.env, rx := t.rx, tx := t.tx, bounce := t.bounce, completed := t.completed, dropped := t.dropped
    readable := t.readable, writeable := t.writeable, notifyCount := t.notifyCount, pending := t.pending
    periphEn := t.periphEn, periphDir := t.periphDir, xferRemaining := t.xferRemaining } := by
  unfold execSegDone at h
  split at h
  · exact dispatchOne_eq h
  · cases h; rfl

/-- A segment step moves bytes between memory and the environment and posts a completion, no more (R180). -/
theorem dmaSegment_eq (h : dmaSegment s = .next t) : t = { s with
    env := t.env, bounce := t.bounce, txWire := t.txWire, hwIdx := t.hwIdx, pending := t.pending
    deadlineMiss := t.deadlineMiss, xferRemaining := t.xferRemaining } := by
  rcases dmaSegment_cases h with ⟨-, rfl⟩ | ⟨-, -, m, -, rfl⟩ | ⟨-, -, bs, -, rfl⟩ <;> rfl

end

/-! ## The parameters -/

theorem openDevice_par (s : State) : (openDevice s).par = s.par := by
  unfold openDevice
  split_ifs <;> rfl

theorem closeDevice_par (s : State) : (closeDevice s).par = s.par := by
  unfold closeDevice
  split <;> simp

/-- No command and no event changes a parameter (R8). -/
theorem exec_par {i : Instr} {s t : State} (h : exec i s = .next t) : t.par = s.par := by
  cases i with
  | openDev => cases h; exact openDevice_par s
  | closeDev => cases h; exact closeDevice_par s
  | setMode m => cases h; rw [setMode_eq]
  | read nb n => cases h; rw [readRx_eq]
  | write data => cases h; rw [writeTx_eq]
  | flush => cases h; rw [flushRx_eq]
  | refreshTick => cases h; rw [refresh_eq]
  | cancel => cases h; exact interruptRead_par s
  | segDone => rw [execSegDone_eq h]
  | getMode | getUnit | getMult | getOffs => cases h; rfl
  | setMult | setOffs | poll | getStat => cases h; split <;> rfl

/-! ## What a step keeps -/

theorem paramsLegal_of_step {s t : State} (h : step s = .next t) : paramsLegal s.par = true := by
  by_contra hillegal
  rw [step_illegal (Bool.eq_false_iff.mpr hillegal)] at h
  cases h

/-- A property that reads neither draws nor ports is kept by a step of a legal parameter set if every command and event, every wake and every segment step keeps it (R87). -/
theorem step_keeps {P : State → Prop} (hframe : ∀ s env ports, P s → P { s with env := env, ports := ports })
    (hexec : ∀ i s t, paramsLegal s.par = true → P s → exec i s = .next t → P t)
    (hwake : ∀ n s, P s → P (readWake n s))
    (hdma : ∀ s t, paramsLegal s.par = true → P s → dmaSegment s = .next t → P t)
    {s t : State} (h : step s = .next t) (hs : P s) : P t := by
  have hlegal := paramsLegal_of_step h
  obtain ⟨u, rfl, hcases⟩ := step_cases h
  have hturn : P (turnTaken s) := hframe s (dropTurn s.env) s.ports hs
  have htaken : ∀ p rest, P (setInput p rest (turnTaken s)) := fun p rest => hframe _ _ (s.ports.setInput p rest) hturn
  rcases hcases with rfl | ⟨p, rest, rfl⟩ | ⟨i, p, rest, -, -, hi⟩ | ⟨i, -, hi⟩ | ⟨n, -, rfl⟩ | hsegment
  · exact hturn
  · rw [answerIllegal_eq]
    exact hframe _ _ _ (htaken p rest)
  · exact hexec i (setInput p rest (turnTaken s)) t hlegal (htaken p rest) hi
  · exact hexec i (turnTaken s) t hlegal hturn hi
  · exact hwake n _ hturn
  · exact hdma (turnTaken s) t hlegal hturn hsegment

/-- Settles O57: no operation a step is made of writes the parameter set. -/
theorem parametersNeverChange : Obligations.ParametersNeverChange := fun s _ h =>
  step_keeps (P := fun u => u.par = s.par) (fun _ _ _ => id) (fun _ _ _ _ hu hi => (exec_par hi).trans hu)
    (fun n u hu => by rwa [readWake_eq u n])
    (fun _ _ _ hu hsegment => by rwa [dmaSegment_eq hsegment]) h rfl

/-! ## The form of memory -/

theorem wf_of_addrs {m m' : Memory} (h : m'.map Prod.fst = m.map Prod.fst) (hm : Memory.wf m) : Memory.wf m' := by
  rwa [Memory.wf, h]

/-- OPEN lists the addresses of the region in order (R300, R81). -/
theorem openState_bounce_addrs (s : State) : (openState s).bounce.map Prod.fst = bounceAddrs s.par :=
  (Memory.cells_addrs ..).trans (by rw [nextBytes_length, bounceAddrs])

theorem openDevice_wf {s : State} (h : Memory.wf s.bounce) : Memory.wf (openDevice s).bounce := by
  unfold openDevice
  split_ifs
  · exact h
  · have haddrs := openState_bounce_addrs { s with env := dropBit s.env }
    rw [Memory.wf, done_bounce, haddrs]
    exact bounceAddrs_sorted _
  · exact h

theorem closeDevice_wf {s : State} (h : Memory.wf s.bounce) : Memory.wf (closeDevice s).bounce := by
  unfold closeDevice
  split
  · exact h
  · exact List.Pairwise.nil

/-- OPEN lists the region in order, CLOSE lists nothing, and every other command and event keeps the addresses (R301). -/
theorem exec_wf {i : Instr} {s t : State} (hm : Memory.wf s.bounce) (h : exec i s = .next t) : Memory.wf t.bounce := by
  by_cases hclose : i = .closeDev
  · subst hclose
    cases h
    exact closeDevice_wf hm
  · by_cases hopen : i = .openDev
    · subst hopen
      cases h
      exact openDevice_wf hm
    · obtain ⟨-, -, -, haddrs⟩ := geometryIsFixedWhileOpen i s t h hclose (absurd · hopen)
      exact wf_of_addrs haddrs hm

theorem dmaSegment_wf {s t : State} (hm : Memory.wf s.bounce) (h : dmaSegment s = .next t) : Memory.wf t.bounce := by
  rcases dmaSegment_cases h with ⟨-, rfl⟩ | ⟨-, -, m, hwrite, rfl⟩ | ⟨-, -, bs, -, rfl⟩
  · exact hm
  · exact Memory.writeBytes_wf hwrite hm
  · exact hm

/-- Settles O47: stores keep the addresses, OPEN lists them in order and CLOSE removes them. -/
theorem stepKeepsMemoryCanonical : Obligations.StepKeepsMemoryCanonical := fun _ _ hm h =>
  step_keeps (P := fun u => Memory.wf u.bounce) (fun _ _ _ => id) (fun _ _ _ _ => exec_wf)
    (fun n u hu => by rwa [readWake_eq u n]) (fun _ _ _ => dmaSegment_wf) h hm

end Sys2Proof.Machine

/-! PROOF. The transfer engine: every way a step can move its registers, and what follows for the segment a completion selects (42_completion_dispatcher.md R201, R209), for DEADLINE_MISS (10_state.md R42) and for an RX stall (60_exceptions.md R357). -/

namespace Sys2Proof.Machine

/-! ## The engine and its moves -/

/-- The registers of a transfer: those of the DMA engine and of the peripheral, and the counts of completions. -/
structure Engine where
  xferDir : Dir
  hwIdx : Nat
  completed : Word
  pending : Nat
  deadlineMiss : Bool
  periphEn : Bool
  periphDir : Dir
  xferRemaining : Nat

/-- The engine of a state. -/
def engine (s : State) : Engine where
  xferDir := s.xferDir
  hwIdx := s.hwIdx
  completed := s.completed
  pending := s.pending
  deadlineMiss := s.deadlineMiss
  periphEn := s.periphEn
  periphDir := s.periphDir
  xferRemaining := s.xferRemaining

/-- The engine after OPEN, and after a start that failed (R300, R171). -/
def Engine.cleared : Engine where
  xferDir := .none
  hwIdx := 0
  completed := 0
  pending := 0
  deadlineMiss := false
  periphEn := false
  periphDir := .none
  xferRemaining := 0

/-- Everything one command, event or segment step can do to the engine under a parameter set. -/
inductive EngineStep (p : Params) (e : Engine) : Engine → Prop where
  /-- What is not about the transfer. -/
  | unchanged : EngineStep p e e
  /-- StopTransfer (R173). -/
  | stopped : EngineStep p e
      { e with xferDir := .none, pending := 0, periphEn := false, periphDir := .none, xferRemaining := 0 }
  /-- OPEN, or a start that failed (R300, R171). -/
  | cleared : EngineStep p e .cleared
  /-- StartTransfer (R170). -/
  | started (d : Dir) : EngineStep p e
      { Engine.cleared with xferDir := d, periphEn := true, periphDir := d, xferRemaining := p.xferLen }
  /-- A refresh tick that re-armed (R186). -/
  | reArmed : EngineStep p e { e with xferRemaining := p.xferLen }
  /-- A handled RX completion, which re-arms (R202). -/
  | received (hposted : 0 < e.pending) : EngineStep p e
      { e with pending := e.pending - 1, completed := e.completed + 1, xferRemaining := p.xferLen }
  /-- A handled TX completion that found the peripheral active (R205, R188). -/
  | sent (hdir : e.xferDir ≠ .devToMem) (hposted : 0 < e.pending) : EngineStep p e
      { e with pending := e.pending - 1, completed := e.completed + 1 }
  /-- A handled TX completion that restarted the peripheral (R205, R188). -/
  | sentRestarted (hdir : e.xferDir ≠ .devToMem) (hposted : 0 < e.pending) : EngineStep p e
      { e with
        pending := e.pending - 1, completed := e.completed + 1
        periphEn := true, periphDir := .memToDev, xferRemaining := p.xferLen }
  /-- A segment step (R180). -/
  | segment (hdir : e.xferDir ≠ .none) (hremaining : 0 < e.xferRemaining) : EngineStep p e
      { e with
        hwIdx := (e.hwIdx + 1) % p.nSeg, xferRemaining := e.xferRemaining - 1
        deadlineMiss := e.deadlineMiss || decide (0 < e.pending), pending := e.pending + 1 }

section
variable {s t : State}

theorem engine_startTransfer_ok {d : Dir} (h : startResult s = .ok) : engine (startTransfer d s) =
    { Engine.cleared with xferDir := d, periphEn := true, periphDir := d, xferRemaining := s.par.xferLen } := by
  obtain ⟨hdir, hen, hpdir, hremaining⟩ := startTransfer_ok (d := d) h
  simp [engine, Engine.cleared, hdir, hen, hpdir, hremaining]

theorem engine_startTransfer_failed {d : Dir} (hd : s.xferDir = .none) (h : startResult s ≠ .ok) :
    engine (startTransfer d s) = .cleared := by
  obtain ⟨hdir, hen, hpdir, hremaining⟩ := startTransfer_failed (d := d) h
  simp [engine, Engine.cleared, hdir, hd, hen, hpdir, hremaining]

theorem engine_deviceBusyOutcome (s : State) : engine (deviceBusyOutcome s) = engine s := by
  rw [deviceBusyOutcome_eq]
  rfl

theorem engine_interruptRead (s : State) : engine (interruptRead s) = engine s := by
  rw [interruptRead_eq]
  rfl

theorem setMode_engine (m : Mode) (s : State) : EngineStep s.par (engine s) (engine (setMode m s)) := by
  rcases setMode_cases m s with ⟨-, e⟩ | ⟨-, -, e⟩ | ⟨-, -, -, e⟩ | ⟨-, -, -, -, e⟩ | ⟨-, -, -, -, e⟩ | ⟨-, -, -, -, hs, e⟩ |
    ⟨-, -, -, -, hs, e⟩ <;> rw [e]
  · exact .unchanged
  · exact .unchanged
  · have hbusy := engine_deviceBusyOutcome (stopTransfer s)
    exact hbusy ▸ .stopped
  · exact .stopped
  · exact .stopped
  · have hstart := engine_startTransfer_ok (d := .devToMem) (s := configureSelector m (enterIdle (stopTransfer s))) hs
    exact hstart ▸ .started .devToMem
  · have hstart := engine_startTransfer_failed (d := .devToMem)
      (s := configureSelector m (enterIdle (stopTransfer s))) rfl hs
    exact hstart ▸ .cleared

theorem openDevice_engine (s : State) : EngineStep s.par (engine s) (engine (openDevice s)) := by
  unfold openDevice
  split_ifs
  · exact .unchanged
  · exact .cleared
  · exact .unchanged

theorem closeDevice_engine (s : State) : EngineStep s.par (engine s) (engine (closeDevice s)) := by
  unfold closeDevice
  split
  · exact .unchanged
  · have hinterrupt := engine_interruptRead (stopTransfer s)
    exact hinterrupt ▸ .stopped

/-- A lazy start happens with no transfer running, so one that fails leaves none (R286). -/
theorem writeFinish_engine (k : Word) (s : State) : EngineStep s.par (engine s) (engine (writeFinish k s)) := by
  rcases writeFinish_cases k s with ⟨-, e⟩ | ⟨-, hs, e⟩ | ⟨hdue, hs, e⟩ <;> rw [e]
  · exact .unchanged
  · have hstart := engine_startTransfer_ok (d := .memToDev) hs
    exact hstart ▸ .started .memToDev
  · obtain ⟨-, hnone, -⟩ := lazyStartDue_iff.mp hdue
    have hstart := engine_startTransfer_failed (d := .memToDev) hnone hs
    exact hstart ▸ .cleared

theorem writeTx_engine (data : List Byte) (s : State) : EngineStep s.par (engine s) (engine (writeTx data s)) := by
  unfold writeTx
  split
  · exact .unchanged
  · exact writeFinish_engine _ (writePush data s)

theorem refresh_engine (s : State) : EngineStep s.par (engine s) (engine (refresh s)) := by
  unfold refresh
  split_ifs
  · exact .unchanged
  · exact .unchanged
  · exact .reArmed
  · exact .unchanged

theorem rxComplete_engine (h : rxComplete s = .next t) : engine t =
    { engine s with completed := s.completed + 1, xferRemaining := s.par.xferLen } := by
  rcases rxComplete_cases h with ⟨-, -, bs, -, rfl⟩ | ⟨-, rfl⟩ <;> simp [engine]

/-- A TX completion counts, and restarts the peripheral if its sample of ACTIVE reads 0 (R188, R205). -/
theorem txComplete_engine (h : txComplete s = .next t) :
    engine t = { engine s with completed := s.completed + 1 } ∨ engine t =
      { engine s with
        completed := s.completed + 1
        periphEn := true, periphDir := .memToDev, xferRemaining := s.par.xferLen } := by
  have hcount : engine t = { engine (txRestartCheck s) with completed := s.completed + 1 } := by
    rcases txComplete_cases h with ⟨-, -, m, -, rfl⟩ | ⟨-, rfl⟩ <;> simp [engine]
  rw [hcount]
  unfold txRestartCheck
  split
  · exact .inl rfl
  · exact .inr rfl

theorem execSegDone_engine (h : execSegDone s = .next t) : EngineStep s.par (engine s) (engine t) := by
  unfold execSegDone at h
  split at h
  · next hposted =>
    unfold dispatchOne at h
    split at h
    · rw [rxComplete_engine h]
      exact .received hposted
    · next hdir =>
      rcases txComplete_engine h with e | e <;> rw [e]
      · exact .sent hdir hposted
      · exact .sentRestarted hdir hposted
  · cases h
    exact .unchanged

/-- What a command or event can do to the engine. -/
theorem exec_engine {i : Instr} (h : exec i s = .next t) : EngineStep s.par (engine s) (engine t) := by
  cases i with
  | openDev => cases h; exact openDevice_engine s
  | closeDev => cases h; exact closeDevice_engine s
  | setMode m => cases h; exact setMode_engine m s
  | write data => cases h; exact writeTx_engine data s
  | refreshTick => cases h; exact refresh_engine s
  | segDone => exact execSegDone_engine h
  | read nb n => cases h; rw [readRx_eq]; exact .unchanged
  | flush => cases h; rw [flushRx_eq]; exact .unchanged
  | cancel => cases h; rw [engine_interruptRead]; exact .unchanged
  | getMode | getUnit | getMult | getOffs => cases h; exact .unchanged
  | setMult | setOffs | poll | getStat => cases h; split <;> exact .unchanged

theorem dmaSegment_engine (h : dmaSegment s = .next t) : EngineStep s.par (engine s) (engine t) := by
  rcases dmaSegment_cases h with ⟨-, rfl⟩ | ⟨hen, -, m, -, rfl⟩ | ⟨hen, -, bs, -, rfl⟩
  · exact .unchanged
  · obtain ⟨hdir, -, hremaining⟩ := dmaEnabled_iff.mp hen
    exact .segment hdir hremaining
  · obtain ⟨hdir, -, hremaining⟩ := dmaEnabled_iff.mp hen
    exact .segment hdir hremaining

/-- What every move of the engine keeps, every step keeps. -/
theorem step_keeps_engine {P : Params → Engine → Prop}
    (hkeep : ∀ p e e', paramsLegal p = true → P p e → EngineStep p e e' → P p e')
    (h : step s = .next t) (hs : P s.par (engine s)) : P t.par (engine t) :=
  step_keeps (P := fun u => P u.par (engine u)) (fun _ _ _ => id)
    (fun _ u v hlegal hu hi => by rw [exec_par hi]; exact hkeep _ _ _ hlegal hu (exec_engine hi))
    (fun n u hu => by rw [readWake_eq]; exact hu)
    (fun u v hlegal hu hsegment => by
      have hpar : v.par = u.par := by rw [dmaSegment_eq hsegment]
      rw [hpar]
      exact hkeep _ _ _ hlegal hu (dmaSegment_engine hsegment)) h hs

end

/-! ## Completions and DEADLINE_MISS -/

/-- `SegmentsTracked`, of the engine alone. -/
def Engine.SegmentsTracked (p : Params) (e : Engine) : Prop :=
  e.xferDir ≠ .none → e.hwIdx = (e.completed.toNat + e.pending) % p.nSeg

/-- `DeadlineTracked`, of the engine alone. -/
def Engine.DeadlineTracked (e : Engine) : Prop := e.deadlineMiss = false → e.pending ≤ 1

theorem segmentsTracked_iff {s : State} : SegmentsTracked s ↔ (engine s).SegmentsTracked s.par := Iff.rfl

theorem deadlineTracked_iff {s : State} : DeadlineTracked s ↔ (engine s).DeadlineTracked := Iff.rfl

/-- N_SEG divides 2^32, so the counter keeps its residue across its wrap (R10, R209). -/
theorem completed_succ_mod {n : Nat} (hn : 2 ^ 32 % n = 0) (c : Word) (k : Nat) :
    ((c + 1).toNat + k) % n = (c.toNat + (k + 1)) % n := by
  have hdvd : n ∣ 2 ^ 32 := Nat.dvd_of_mod_eq_zero hn
  have hsucc : (c + 1).toNat = (c.toNat + 1) % 2 ^ 32 := BitVec.toNat_add c 1
  rw [hsucc, ← Nat.mod_add_mod, Nat.mod_mod_of_dvd _ hdvd, Nat.mod_add_mod, Nat.add_assoc, Nat.add_comm 1 k]

theorem EngineStep.segmentsTracked {p : Params} {e e' : Engine} (hp : paramsLegal p = true) (h : e.SegmentsTracked p)
    (hstep : EngineStep p e e') : e'.SegmentsTracked p := by
  obtain ⟨⟨-, -, -, -, -, -, -, -, -, -, -, -, hwrap, -⟩, -⟩ := paramsLegal_iff.mp hp
  intro hdir'
  cases hstep with
  | unchanged | reArmed => exact h hdir'
  | stopped | cleared => exact absurd rfl hdir'
  | started d => exact (Nat.zero_mod _).symm
  | received hposted | sent hdir hposted | sentRestarted hdir hposted =>
    have hindex := h hdir'
    rw [completed_succ_mod hwrap, Nat.sub_add_cancel hposted]
    exact hindex
  | segment hdir hremaining => rw [h hdir, Nat.mod_add_mod, Nat.add_assoc]

theorem EngineStep.deadlineTracked {p : Params} {e e' : Engine} (h : e.DeadlineTracked) (hstep : EngineStep p e e') :
    e'.DeadlineTracked := by
  intro hclear
  cases hstep with
  | unchanged | reArmed => exact h hclear
  | stopped | cleared | started d => exact Nat.zero_le 1
  | received hposted | sent hdir hposted | sentRestarted hdir hposted => exact (Nat.sub_le ..).trans (h hclear)
  | segment hdir hremaining =>
    obtain ⟨-, hnone⟩ := Bool.or_eq_false_iff.mp hclear
    have hzero := of_decide_eq_false hnone
    exact Nat.succ_le_succ (Nat.le_of_not_lt hzero)

/-- Settles O45: index and counts move together, modulo N_SEG, and a segment step on a pending completion sets DEADLINE_MISS. -/
theorem stepKeepsCompletionsTracked : Obligations.StepKeepsCompletionsTracked :=
  ⟨fun _ _ _ hs h => segmentsTracked_iff.mpr (step_keeps_engine (P := fun p e => e.SegmentsTracked p)
      (fun _ _ _ hp he => EngineStep.segmentsTracked hp he) h (segmentsTracked_iff.mp hs)),
    fun _ _ hs h => deadlineTracked_iff.mpr (step_keeps_engine (P := fun _ e => e.DeadlineTracked)
      (fun _ _ _ _ he => EngineStep.deadlineTracked he) h (deadlineTracked_iff.mp hs))⟩

/-! ## Stalls -/

/-- `PeripheralTracked`, of the engine alone. -/
def Engine.PeripheralTracked (p : Params) (e : Engine) : Prop :=
  (e.xferDir ≠ .none → e.periphEn = true ∧ e.periphDir = e.xferDir) ∧ e.xferRemaining ≤ p.xferLen

/-- `RxStallHasCompletions`, of the engine alone. -/
def Engine.RxStallHasCompletions (p : Params) (e : Engine) : Prop :=
  e.xferDir = .devToMem → p.xferLen ≤ e.xferRemaining + e.pending

theorem peripheralTracked_iff {s : State} : PeripheralTracked s ↔ (engine s).PeripheralTracked s.par := Iff.rfl

theorem rxStallHasCompletions_iff {s : State} :
    RxStallHasCompletions s ↔ (engine s).RxStallHasCompletions s.par := Iff.rfl

theorem dir_eq_memToDev {d : Dir} (hnone : d ≠ .none) (hrx : d ≠ .devToMem) : d = .memToDev := by
  cases d with
  | none => exact absurd rfl hnone
  | devToMem => exact absurd rfl hrx
  | memToDev => rfl

theorem EngineStep.peripheralTracked {p : Params} {e e' : Engine} (h : e.PeripheralTracked p)
    (hstep : EngineStep p e e') : e'.PeripheralTracked p := by
  obtain ⟨hperiph, hremaining⟩ := h
  cases hstep with
  | unchanged => exact ⟨hperiph, hremaining⟩
  | stopped | cleared => exact ⟨fun hdir => absurd rfl hdir, Nat.zero_le _⟩
  | started d => exact ⟨fun _ => ⟨rfl, rfl⟩, Nat.le_refl _⟩
  | reArmed | received => exact ⟨hperiph, Nat.le_refl _⟩
  | sent => exact ⟨hperiph, hremaining⟩
  | sentRestarted hrx hposted =>
    exact ⟨fun hdir => ⟨rfl, (dir_eq_memToDev hdir hrx).symm⟩, Nat.le_refl _⟩
  | segment => exact ⟨hperiph, (Nat.sub_le ..).trans hremaining⟩

/-- A segment step moves one segment from the remaining count to the pending ones, and what handles one in RX re-arms. -/
theorem EngineStep.rxStallHasCompletions {p : Params} {e e' : Engine} (h : e.RxStallHasCompletions p)
    (hstep : EngineStep p e e') : e'.RxStallHasCompletions p := by
  intro hdir
  cases hstep with
  | unchanged => exact h hdir
  | stopped | cleared => cases hdir
  | started d | reArmed | received => exact Nat.le_add_right ..
  | sent hrx | sentRestarted hrx => exact absurd hdir hrx
  | segment hrun hremaining =>
    have hsum := h hdir
    show p.xferLen ≤ e.xferRemaining - 1 + (e.pending + 1)
    omega

/-- Settles O46: both invariants are kept by every move of the engine. -/
theorem stepKeepsStallsLiftable : Obligations.StepKeepsStallsLiftable := fun _ _ _ hperiph hstall h =>
  ⟨peripheralTracked_iff.mpr (step_keeps_engine (P := fun p e => e.PeripheralTracked p)
      (fun _ _ _ _ he => EngineStep.peripheralTracked he) h (peripheralTracked_iff.mp hperiph)),
    rxStallHasCompletions_iff.mpr (step_keeps_engine (P := fun p e => e.RxStallHasCompletions p)
      (fun _ _ _ _ he => EngineStep.rxStallHasCompletions he) h (rxStallHasCompletions_iff.mp hstall))⟩

end Sys2Proof.Machine

/-! PROOF. The invariants (10_state.md R63): they hold at reset, every step keeps them, and from a sound state every step and every instruction answers a next state (60_exceptions.md R357). -/

namespace Sys2Proof.Machine

/-! ## Updates that keep a state sound -/

section
variable {s : State} (h : Inv s)
include h

theorem Inv.withEnvPorts (env : Env) (ports : Ports) : Inv { s with env := env, ports := ports } :=
  h.keep env ports s.completed s.dropped s.readable s.writeable s.deadlineMiss s.notifyCount s.txWire s.periphDir
    s.xferRemaining

theorem Inv.withMult {v : BitVec 8} (hv : multLegal v = true) : Inv { s with cfgMult := v } :=
  { h with closed := fun hc => { h.closed hc with }, mult := hv }

theorem Inv.withOffsets {a b : Int} (hab : offsetsAccepted s.par a b = true) : Inv { s with cfgOffa := a, cfgOffb := b } :=
  { h with closed := fun hc => { h.closed hc with }, offsets := hab }

theorem Inv.withRx (ho : s.isOpen = true) {q : Queue} (hq : QueueOk s.cap q) : Inv { s with rx := q } :=
  { h with closed := fun hc => absurd ho (Bool.eq_false_iff.mp hc), rx := hq }

theorem Inv.withTx (ho : s.isOpen = true) {q : Queue} (hq : QueueOk s.cap q) : Inv { s with tx := q } :=
  { h with closed := fun hc => absurd ho (Bool.eq_false_iff.mp hc), tx := hq }

theorem Inv.withBounce {m : Memory} (hm : m.map Prod.fst = s.bounce.map Prod.fst) : Inv { s with bounce := m } :=
  { h with closed := fun hc => { h.closed hc with }, bounce := hm.trans h.bounce }

theorem Inv.withBlocked (ho : s.isOpen = true) {n : Word} (hn : n ≠ 0) : Inv { s with rdBlocked := some n } :=
  { h with
    closed := fun hc => absurd ho (Bool.eq_false_iff.mp hc)
    blocked := fun _ hm => ⟨Option.some.inj hm ▸ hn, ho⟩ }

theorem Inv.withUnblocked : Inv { s with rdBlocked := none } :=
  { h with closed := fun hc => { h.closed hc with rdBlocked := rfl }, blocked := nofun }

theorem Inv.withPeriphEn (ho : s.isOpen = true) (en : Bool) : Inv { s with periphEn := en } :=
  { h with closed := fun hc => absurd ho (Bool.eq_false_iff.mp hc) }

/-- While a transfer runs, any number of completions may be pending (R63 item 5). -/
theorem Inv.withPending (hd : s.xferDir ≠ .none) (n : Nat) : Inv { s with pending := n } :=
  { h with closed := fun hc => absurd (h.closed hc).xferDir hd, noPending := fun hnone => absurd hnone hd }

theorem Inv.withHwIdx {i : Nat} (hi : i < s.par.nSeg) : Inv { s with hwIdx := i } :=
  { h with closed := fun hc => { h.closed hc with }, hwIdx := hi }

/-- With no transfer running an open device can change its mode, the selector going with it (R63 item 6). -/
theorem Inv.withMode (ho : s.isOpen = true) (hd : s.xferDir = .none) {m : Mode} {v : SelectorValue}
    (hv : m = .idle ↔ v = s.par.selHiz) : Inv { s with mode := m, sel := v } :=
  { h with
    closed := fun hc => absurd ho (Bool.eq_false_iff.mp hc)
    devToMem := fun hrx => nomatch hd.symm.trans hrx
    memToDev := fun htx => nomatch hd.symm.trans htx
    selector := hv }

/-- The mode and the selector that SET_MODE configures go together, since no SELECTOR value is SEL_HIZ (R8, R151). -/
theorem Inv.withConfiguredMode (ho : s.isOpen = true) (hd : s.xferDir = .none) {m : Mode} (hm : m ≠ .idle) :
    Inv { s with mode := m, sel := selectorValue s.par m s.cfgOffa s.cfgOffb } :=
  h.withMode ho hd ⟨fun hidle => absurd hidle hm, fun hhiz => absurd hhiz (selectorValue_ne_hiz h.params hm h.offsets)⟩

/-- Bytes are queued on an open device only (R63 item 1). -/
theorem Inv.open_of_queued (hrx : 0 < s.rx.count) : s.isOpen = true := by
  by_contra hclosed
  have hempty := (h.closed (Bool.eq_false_iff.mpr hclosed)).rx
  omega

/-- A completion is pending only while a transfer runs (R63 item 5). -/
theorem Inv.transfer_of_pending (hp : 0 < s.pending) : s.xferDir ≠ .none := fun hnone => by
  have hzero := h.noPending hnone
  omega

end

/-! ## The operations -/

/-- A start reads neither the mode nor the selector, so it ends as if it had been made from before they were set. -/
theorem startTransfer_configured (m : Mode) (s : State) :
    startTransfer .devToMem (configureSelector m (enterIdle s)) =
      { startTransfer .devToMem s with mode := .idle, sel := selectorValue s.par m s.cfgOffa s.cfgOffb } :=
  startTransfer_of_mode_sel .devToMem s .idle _

/-- A start may as well be made in the mode it is committed to (R153). -/
theorem startTransfer_committed (m : Mode) (s : State) :
    { startTransfer .devToMem (configureSelector m (enterIdle s)) with mode := m } =
      startTransfer .devToMem { s with mode := m, sel := selectorValue s.par m s.cfgOffa s.cfgOffb } := by
  rw [startTransfer_configured]
  exact (startTransfer_of_mode_sel .devToMem s m _).symm

section
variable {s t : State} (h : Inv s)
include h

theorem respond_inv (p : Port) (st : Status) (v : Word) (d : List Byte) : Inv (respond p st v d s) :=
  h.withEnvPorts s.env _

theorem stopTransfer_inv : Inv (stopTransfer s) :=
  { h with
    closed := fun hc => { h.closed hc with xferDir := rfl, pending := rfl, periphEn := rfl }
    devToMem := nofun
    memToDev := nofun
    noPending := fun _ => rfl }

theorem enterIdle_inv (hd : s.xferDir = .none) : Inv (enterIdle s) :=
  { h with
    closed := fun hc => { h.closed hc with mode := rfl, sel := rfl }
    devToMem := fun hrx => nomatch hd.symm.trans hrx
    memToDev := fun htx => nomatch hd.symm.trans htx
    selector := ⟨fun _ => rfl, fun _ => rfl⟩ }

theorem startTransfer_ok_inv {d : Dir} (ho : s.isOpen = true) (hrx : d = .devToMem → s.mode = .rx0 ∨ s.mode = .rx1)
    (htx : d = .memToDev → s.mode = .tx) (hok : startResult s = .ok) : Inv (startTransfer d s) := by
  rcases startTransfer_cases d s with ⟨-, e⟩ | ⟨hfailed, -⟩ | ⟨hbusy, -⟩
  · rw [e]
    exact { h with
      closed := fun hc => absurd ho (Bool.eq_false_iff.mp hc)
      devToMem := hrx
      memToDev := htx
      noPending := fun _ => rfl
      hwIdx := h.nSeg_pos }
  · rw [hok] at hfailed
    cases hfailed
  · rw [hok] at hbusy
    cases hbusy

theorem startTransfer_failed_inv {d : Dir} (ho : s.isOpen = true) (hfailed : startResult s ≠ .ok) :
    Inv (startTransfer d s) := by
  have hcleared : ∀ env, Inv (periphDefaults { startPrepare d s with env := env }) := fun env =>
    { h with
      closed := fun hc => absurd ho (Bool.eq_false_iff.mp hc)
      noPending := fun _ => rfl
      hwIdx := h.nSeg_pos }
  rcases startTransfer_cases d s with ⟨hok, -⟩ | ⟨-, e⟩ | ⟨-, e⟩
  · exact absurd hok hfailed
  · rw [e]
    exact hcleared _
  · rw [e]
    exact hcleared _

theorem interruptRead_inv : Inv (interruptRead s) := by
  rw [interruptRead_eq]
  exact h.withUnblocked.withEnvPorts s.env _

theorem setMode_inv (m : Mode) : Inv (setMode m s) := by
  have hstop := stopTransfer_inv h
  rcases setMode_cases m s with ⟨-, e⟩ | ⟨-, -, e⟩ | ⟨ho, -, -, e⟩ | ⟨-, -, -, -, e⟩ | ⟨ho, -, -, -, e⟩ |
    ⟨ho, -, -, hm, hs, e⟩ | ⟨ho, -, -, hm, hs, e⟩ <;> rw [e]
  · exact respond_inv h ..
  · exact respond_inv h ..
  · refine respond_inv ?_ ..
    unfold deviceBusyOutcome
    split
    · exact hstop.withEnvPorts _ s.ports
    · exact enterIdle_inv (hstop.withEnvPorts _ s.ports) rfl
  · exact respond_inv (enterIdle_inv hstop rfl) ..
  · have htx := (hstop.withConfiguredMode (m := .tx) ho rfl nofun).withTx ho hstop.tx.reset
    exact htx.keep _ _ s.completed s.dropped s.readable true s.deadlineMiss (s.notifyCount + 1) s.txWire .none 0
  · have hmode : m ≠ .idle := by rcases hm with rfl | rfl <;> nofun
    rw [startTransfer_committed]
    exact respond_inv (startTransfer_ok_inv (d := .devToMem) (hstop.withConfiguredMode ho rfl hmode) ho (fun _ => hm) nofun hs) ..
  · have hfailed := startTransfer_failed_inv hstop (d := .devToMem) ho hs
    have hnone : (startTransfer .devToMem (stopTransfer s)).xferDir = .none := (startTransfer_failed hs).1
    rw [startTransfer_configured]
    exact respond_inv (enterIdle_inv hfailed hnone) ..

theorem writePush_inv (ho : s.isOpen = true) (data : List Byte) : Inv (writePush data s) :=
  (h.withTx ho (h.tx.push data)).keep s.env s.ports s.completed s.dropped s.readable _ s.deadlineMiss s.notifyCount
    s.txWire s.periphDir s.xferRemaining

theorem writeFinish_inv (ho : s.isOpen = true) (k : Word) : Inv (writeFinish k s) := by
  rcases writeFinish_cases k s with ⟨-, e⟩ | ⟨hdue, hs, e⟩ | ⟨hdue, hs, e⟩ <;> rw [e]
  · exact respond_inv h ..
  · obtain ⟨htx, -, -⟩ := lazyStartDue_iff.mp hdue
    exact respond_inv (startTransfer_ok_inv (d := .memToDev) h ho nofun (fun _ => htx) hs) ..
  · obtain ⟨-, hnone, -⟩ := lazyStartDue_iff.mp hdue
    have hstill : (startTransfer .memToDev s).xferDir = .none := (startTransfer_failed hs).1.trans hnone
    exact respond_inv (enterIdle_inv (startTransfer_failed_inv h ho hs) hstill) ..

theorem writeTx_inv (data : List Byte) : Inv (writeTx data s) := by
  unfold writeTx
  split
  · exact respond_inv h ..
  · next hopen => exact writeFinish_inv (writePush_inv h (by simpa using hopen) data) (by simpa using hopen) _

theorem takeRx_inv (ho : s.isOpen = true) (n : Word) : Inv (takeRx n s) := by
  rw [takeRx_eq]
  exact (h.withRx ho (h.rx.pop n.toNat)).keep s.env _ s.completed s.dropped _ s.writeable s.deadlineMiss s.notifyCount
    s.txWire s.periphDir s.xferRemaining

theorem readRx_inv (nb : Bool) (n : Word) : Inv (readRx nb n s) := by
  unfold readRx
  split_ifs with hclosed hn hrx hnb
  · exact respond_inv h ..
  · exact respond_inv h ..
  · exact takeRx_inv h (h.open_of_queued hrx) n
  · exact respond_inv h ..
  · exact h.withBlocked (by simpa using hclosed) hn

theorem readWake_inv (n : Word) : Inv (readWake n s) := by
  unfold readWake
  split
  · next hrx => exact takeRx_inv h.withUnblocked (h.open_of_queued hrx) n
  · exact h

theorem flushRx_inv : Inv (flushRx s) := by
  unfold flushRx
  split
  · exact respond_inv h ..
  · next hopen =>
    exact (h.withRx (by simpa using hopen) h.rx.dropAll).keep s.env _ s.completed s.dropped false s.writeable s.deadlineMiss
      s.notifyCount s.txWire s.periphDir s.xferRemaining

theorem refresh_inv : Inv (refresh s) := by
  rw [refresh_eq]
  exact h.keep _ s.ports s.completed s.dropped s.readable s.writeable s.deadlineMiss s.notifyCount s.txWire s.periphDir _

/-- OPEN builds what an open device holds: new queues of a legal capacity and the bytes of the region (R300). -/
theorem openState_inv (hc : s.isOpen = false) : Inv (openState s) :=
  { h with
    closed := nofun
    capacity := fun _ => ⟨s.cfgMult.toNat, (multLegal_iff.mp h.mult).1, (multLegal_iff.mp h.mult).2, rfl⟩
    rx := QueueOk.new _
    tx := QueueOk.new _
    devToMem := nofun
    memToDev := nofun
    noPending := fun _ => rfl
    selector := ⟨fun _ => rfl, fun _ => rfl⟩
    blocked := fun _ hn => nomatch (h.closed hc).rdBlocked.symm.trans hn
    bounce := openState_bounce_addrs s
    hwIdx := h.nSeg_pos }

theorem openDevice_inv : Inv (openDevice s) := by
  unfold openDevice
  split_ifs with hopen halloc
  · exact respond_inv h ..
  · exact respond_inv (openState_inv (h.withEnvPorts (dropBit s.env) s.ports) (by simpa using hopen)) ..
  · exact respond_inv (h.withEnvPorts (dropBit s.env) s.ports) ..

/-- CLOSE leaves what a closed device holds, once the transfer is stopped and no READ is blocked (R302). -/
theorem releaseState_inv (hd : s.xferDir = .none) (hen : s.periphEn = false) (hb : s.rdBlocked = none) : Inv (releaseState s) :=
  { h with
    closed := fun _ => ⟨rfl, hd, rfl, rfl, rfl, h.noPending hd, hb, rfl, hen⟩
    capacity := nofun
    rx := QueueOk.closed
    tx := QueueOk.closed
    devToMem := fun hrx => nomatch hd.symm.trans hrx
    memToDev := fun htx => nomatch hd.symm.trans htx
    selector := ⟨fun _ => rfl, fun _ => rfl⟩
    blocked := fun _ hn => nomatch hb.symm.trans hn
    bounce := rfl }

theorem closeDevice_inv : Inv (closeDevice s) := by
  unfold closeDevice
  split
  · exact respond_inv h ..
  · refine respond_inv (releaseState_inv (interruptRead_inv (stopTransfer_inv h)) ?_ ?_ ?_) ..
    · simp
    · simp
    · rw [interruptRead_eq]

/-! ## The dispatcher and the segment step -/

theorem contentionDrawn_inv : Inv (contentionDrawn s) := by
  rw [contentionDrawn_eq]
  exact h.withEnvPorts _ s.ports

theorem txRestartCheck_inv (ho : s.isOpen = true) : Inv (txRestartCheck s) := by
  rw [txRestartCheck_eq]
  exact (h.withPeriphEn ho (txRestartCheck s).periphEn).keep (txRestartCheck s).env s.ports s.completed s.dropped s.readable
    s.writeable s.deadlineMiss s.notifyCount s.txWire _ _

theorem countDrop_inv : Inv (countDrop s) :=
  h.keep s.env s.ports s.completed _ s.readable s.writeable s.deadlineMiss s.notifyCount s.txWire s.periphDir s.xferRemaining

theorem rxFinish_inv : Inv (rxFinish s) :=
  h.keep s.env s.ports _ s.dropped true s.writeable s.deadlineMiss _ s.txWire s.periphDir s.xferRemaining

theorem txFinish_inv : Inv (txFinish s) :=
  h.keep s.env s.ports _ s.dropped s.readable true s.deadlineMiss _ s.txWire s.periphDir s.xferRemaining

theorem reArm_inv : Inv (reArm s) :=
  h.keep s.env s.ports s.completed s.dropped s.readable s.writeable s.deadlineMiss s.notifyCount s.txWire s.periphDir _

theorem rxComplete_inv (ho : s.isOpen = true) (ht : rxComplete s = .next t) : Inv t := by
  have hdrawn := contentionDrawn_inv (reArm_inv h)
  rcases rxComplete_cases ht with ⟨-, -, bs, -, rfl⟩ | ⟨-, rfl⟩
  · exact rxFinish_inv (hdrawn.withRx (by simpa using ho) (by simpa using h.rx.push bs))
  · exact rxFinish_inv (countDrop_inv hdrawn)

theorem txComplete_inv (ho : s.isOpen = true) (ht : txComplete s = .next t) : Inv t := by
  have hdrawn := contentionDrawn_inv (txRestartCheck_inv h ho)
  rcases txComplete_cases ht with ⟨-, -, m, hm, rfl⟩ | ⟨-, rfl⟩
  · have hstored := hdrawn.withBounce (m := m) (by simpa using Memory.writeBytes_addrs hm)
    exact txFinish_inv (hstored.withTx (by simpa using ho) (by simpa using h.tx.pop s.par.unit))
  · exact txFinish_inv (countDrop_inv hdrawn)

theorem execSegDone_inv (ht : execSegDone s = .next t) : Inv t := by
  unfold execSegDone at ht
  split at ht
  · next hp =>
    have hd := h.transfer_of_pending hp
    have hpending := h.withPending hd (s.pending - 1)
    unfold dispatchOne at ht
    split at ht
    · exact rxComplete_inv hpending (h.open_of_transfer hd) ht
    · exact txComplete_inv hpending (h.open_of_transfer hd) ht
  · cases ht
    exact h

/-- The bookkeeping of a segment step (R180). -/
theorem segmentPosted_inv (hd : s.xferDir ≠ .none) : Inv (segmentPosted s) :=
  ((h.withPending hd (s.pending + 1)).withHwIdx (Nat.mod_lt _ h.nSeg_pos)).keep s.env s.ports s.completed s.dropped s.readable
    s.writeable _ s.notifyCount s.txWire s.periphDir _

theorem dmaSegment_inv (ht : dmaSegment s = .next t) : Inv t := by
  rcases dmaSegment_cases ht with ⟨-, rfl⟩ | ⟨hen, -, m, hm, rfl⟩ | ⟨hen, -, bs, -, rfl⟩
  · exact h
  · obtain ⟨hd, -, -⟩ := dmaEnabled_iff.mp hen
    exact segmentPosted_inv ((h.withBounce (Memory.writeBytes_addrs hm)).withEnvPorts _ s.ports) hd
  · obtain ⟨hd, -, -⟩ := dmaEnabled_iff.mp hen
    exact segmentPosted_inv (h.keep s.env s.ports s.completed s.dropped s.readable s.writeable s.deadlineMiss s.notifyCount _
      s.periphDir s.xferRemaining) hd

/-- Every command and event keeps the invariants (R63). -/
theorem exec_inv {i : Instr} (ht : exec i s = .next t) : Inv t := by
  cases i with
  | openDev => cases ht; exact openDevice_inv h
  | closeDev => cases ht; exact closeDevice_inv h
  | setMode m => cases ht; exact setMode_inv h m
  | setMult v =>
    cases ht
    split
    · next hv => exact respond_inv (h.withMult hv) ..
    · exact respond_inv h ..
  | setOffs a b =>
    cases ht
    split
    · next hab => exact respond_inv (h.withOffsets hab) ..
    · exact respond_inv h ..
  | read nb n => cases ht; exact readRx_inv h nb n
  | write data => cases ht; exact writeTx_inv h data
  | flush => cases ht; exact flushRx_inv h
  | segDone => exact execSegDone_inv h ht
  | refreshTick => cases ht; exact refresh_inv h
  | cancel => cases ht; exact interruptRead_inv h
  | getMode | getUnit | getMult | getOffs => cases ht; exact respond_inv h ..
  | poll | getStat => cases ht; split <;> exact respond_inv h ..

end

/-- Settles O43: every command, event, wake and segment step keeps the invariants, which read neither draws nor ports. -/
theorem stepKeepsTheInvariants : Obligations.StepKeepsTheInvariants := fun _ _ hs h =>
  step_keeps (P := Inv) (fun _ env ports hu => hu.withEnvPorts env ports) (fun _ _ _ _ hu hi => exec_inv hu hi)
    (fun n _ hu => readWake_inv hu n) (fun _ _ _ hu hsegment => dmaSegment_inv hu hsegment) h hs

/-! ## Every step answers -/

section
variable {s : State}

theorem rxComplete_answers (haddrs : s.bounce.map Prod.fst = bounceAddrs s.par) (hseg : 0 < s.par.nSeg) :
    ∃ t, rxComplete s = .next t := by
  unfold rxComplete
  split
  · obtain ⟨_, -, -, hmove⟩ := rxMove_of_bounce (s := contentionDrawn (reArm s)) (by simpa) (by simpa)
    exact ⟨_, hmove⟩
  · exact ⟨_, rfl⟩

theorem txComplete_answers (haddrs : s.bounce.map Prod.fst = bounceAddrs s.par) (hseg : 0 < s.par.nSeg) :
    ∃ t, txComplete s = .next t := by
  unfold txComplete
  split
  · next hmoves =>
    have hunit := txHasUnit_iff.mp (Bool.and_eq_true_iff.mp hmoves).2
    obtain ⟨_, -, hmove⟩ := txMove_of_bounce (s := contentionDrawn (txRestartCheck s)) (by simpa) (by simpa) (by simpa)
    exact ⟨_, hmove⟩
  · exact ⟨_, rfl⟩

variable (h : Inv s)
include h

/-- A completion is pending only while a transfer runs, and then every segment exists (R82). -/
theorem execSegDone_answers : ∃ t, execSegDone s = .next t := by
  unfold execSegDone
  split
  · next hp =>
    have haddrs := h.bounce_of_transfer (h.transfer_of_pending hp)
    unfold dispatchOne
    split
    · exact rxComplete_answers haddrs h.nSeg_pos
    · exact txComplete_answers haddrs h.nSeg_pos
  · exact ⟨s, rfl⟩

theorem exec_answers (i : Instr) : ∃ t, exec i s = .next t := by
  cases i with
  | segDone => exact execSegDone_answers h
  | _ => exact ⟨_, rfl⟩

theorem dmaSegment_answers : ∃ t, dmaSegment s = .next t := by
  by_cases hen : dmaEnabled s = true
  · obtain ⟨hd, hperiph, hremaining⟩ := dmaEnabled_iff.mp hen
    by_cases hrx : s.xferDir = .devToMem
    · obtain ⟨_, -, hnext⟩ := dmaSegmentStep.1 s h hrx hperiph hremaining
      exact ⟨_, hnext⟩
    · obtain ⟨_, -, -, hnext⟩ := dmaSegmentStep.2 s h (dir_eq_memToDev hd hrx) hperiph hremaining
      exact ⟨_, hnext⟩
  · exact ⟨s, if_neg hen⟩

theorem runPort_answers (p : Port) : ∃ t, runPort p s = .next t := by
  rcases runPort_cases p s with e | ⟨rest, e⟩ | ⟨i, rest, -, e⟩
  · exact ⟨_, e⟩
  · exact ⟨_, e⟩
  · rw [e]
    exact exec_answers (h.withEnvPorts s.env (s.ports.setInput p rest)) i

theorem runAgent_answers (g : Agent) : ∃ t, runAgent g s = .next t := by
  cases g with
  | hostCtl => exact runPort_answers h .ctl
  | hostWr => exact runPort_answers h .wr
  | eventInput => exact runPort_answers h .evt
  | hostRd =>
    rw [runAgent, runRd]
    split
    · exact runPort_answers h .rd
    · exact ⟨_, rfl⟩
  | hostSig => exact exec_answers h .cancel
  | dispatch => exact exec_answers h .segDone
  | tick => exact exec_answers h .refreshTick
  | dma => exact dmaSegment_answers h

end

/-- Settles O44: the only access that could fail is to a segment, and a sound state has every segment while a transfer runs. -/
theorem theBlockNeverFaults : Obligations.TheBlockNeverFaults := fun s hs => by
  refine ⟨?_, exec_answers hs⟩
  rw [step_legal hs.params]
  exact runAgent_answers (hs.withEnvPorts (dropTurn s.env) s.ports) (nextAgent s.env)

/-! ## Reset -/

/-- The reset state is closed and quiet, and holds the parameter set's own multiplier and offsets (R65, R10). -/
theorem inv_resetWith {p : Params} (hp : paramsLegal p = true) : Inv (State.resetWith p) := by
  obtain ⟨⟨hseg, -, hmult, hoffa, hoffb, hoffs, -⟩, -⟩ := paramsLegal_iff.mp hp
  exact {
    params := hp
    closed := fun _ => ⟨rfl, rfl, rfl, rfl, rfl, rfl, rfl, rfl, rfl⟩
    capacity := nofun
    rx := QueueOk.closed
    tx := QueueOk.closed
    devToMem := nofun
    memToDev := nofun
    noPending := fun _ => rfl
    selector := ⟨fun _ => rfl, fun _ => rfl⟩
    blocked := nofun
    bounce := rfl
    hwIdx := Nat.lt_of_lt_of_le Nat.zero_lt_two hseg
    mult := multLegal_iff.mpr hmult
    offsets := offsetsAccepted_iff.mpr ⟨hoffa, hoffb, hoffs⟩ }

/-- Settles O42: with no transfer at reset, what the progress invariants say of one is vacuous. -/
theorem resetIsSound : Obligations.ResetIsSound := fun p hp =>
  ⟨inv_resetWith hp, fun hrun => absurd rfl hrun, fun _ => Nat.zero_le 1,
    ⟨fun hrun => absurd rfl hrun, Nat.zero_le p.xferLen⟩, nofun⟩

end Sys2Proof.Machine

/-! PROOF. What goes out on the host ports: one response per command (30_encoding.md R121), a READ that stays blocked (44_notification.md R264), and the stream of bytes from the RX queue to the RD port (20_memory.md R92). -/

namespace Sys2Proof.Machine

open Sys2Proof.Claims

/-! ## The responses of a command -/

section
variable (s : State)

theorem openDevice_ports : ∃ st, (openDevice s).ports = s.ports.answer .ctl (plain st 0) := by
  unfold openDevice
  split_ifs <;> exact ⟨_, rfl⟩

theorem setMode_ports (m : Mode) : ∃ st, (setMode m s).ports = s.ports.answer .ctl (plain st 0) := by
  rcases setMode_cases m s with ⟨-, e⟩ | ⟨-, -, e⟩ | ⟨-, -, -, e⟩ | ⟨-, -, -, -, e⟩ | ⟨-, -, -, -, e⟩ | ⟨-, -, -, -, -, e⟩ |
    ⟨-, -, -, -, -, e⟩
  · exact ⟨.notOpen, by simp [e, plain]⟩
  · exact ⟨.ok, by simp [e, plain]⟩
  · exact ⟨.deviceBusy, by simp [e, plain]⟩
  · exact ⟨.ok, by simp [e, plain]⟩
  · exact ⟨.ok, by simp [e, plain]⟩
  · exact ⟨.ok, by simp [e, plain]⟩
  · exact ⟨startResult (stopTransfer s), by simp [e, plain]⟩

theorem writeFinish_ports (k : Word) : ∃ st, (writeFinish k s).ports = s.ports.answer .wr (plain st k) := by
  rcases writeFinish_cases k s with ⟨-, e⟩ | ⟨-, -, e⟩ | ⟨-, -, e⟩
  · exact ⟨.ok, by simp [e, plain]⟩
  · exact ⟨.ok, by simp [e, plain]⟩
  · exact ⟨startResult s, by simp [e, plain]⟩

theorem writeTx_ports (data : List Byte) : ∃ st v, (writeTx data s).ports = s.ports.answer .wr (plain st v) := by
  unfold writeTx
  split
  · exact ⟨.notOpen, 0, rfl⟩
  · obtain ⟨st, e⟩ := writeFinish_ports (writePush data s) (BitVec.ofNat 32 (pushCount s.cap s.tx data.length))
    exact ⟨st, _, e⟩

theorem flushRx_ports : ∃ st, (flushRx s).ports = s.ports.answer .wr (plain st 0) := by
  unfold flushRx
  split <;> exact ⟨_, rfl⟩

/-- READ answers with as many bytes as its value says, or blocks (R280, R264). -/
theorem readRx_ports (nb : Bool) (n : Word) :
    (∃ r, (readRx nb n s).ports = s.ports.answer .rd r ∧ r.value = BitVec.ofNat 32 r.data.length) ∨
      nb = false ∧ readRx nb n s = { s with rdBlocked := some n } := by
  unfold readRx
  split_ifs with hclosed hn hrx hnb
  · exact .inl ⟨_, rfl, rfl⟩
  · exact .inl ⟨_, rfl, rfl⟩
  · exact .inl ⟨_, rfl, rfl⟩
  · exact .inl ⟨_, rfl, rfl⟩
  · exact .inr ⟨Bool.eq_false_iff.mpr hnb, rfl⟩

/-- CLOSE answers on its own port, and ends a blocked READ on the RD port (R302). -/
theorem closeDevice_ports : ∃ st, (closeDevice s).ports = s.ports.answer .ctl (plain st 0) ∨
    (closeDevice s).ports = (s.ports.answer .rd (plain .interrupted 0)).answer .ctl (plain st 0) := by
  unfold closeDevice
  split
  · exact ⟨_, .inl rfl⟩
  · refine ⟨if stopQuiesced s then .ok else .deviceBusy, ?_⟩
    simp only [raise_ports, releaseState_ports, interruptRead_ports, stopTransfer_rdBlocked]
    cases s.rdBlocked with
    | none => exact .inl rfl
    | some n => exact .inr rfl

end

section
variable {s t : State} {i : Instr}

/-- A command of the CTL or the WR port but CLOSE sends one response without data on its own port, and nothing on any other (R121). -/
theorem exec_ports_of_plain (hport : i.port = .ctl ∨ i.port = .wr) (hclose : i ≠ .closeDev) (h : exec i s = .next t) :
    ∃ st v, t.ports = s.ports.answer i.port (plain st v) := by
  cases i with
  | closeDev => exact absurd rfl hclose
  | read | segDone | refreshTick | cancel => simp [Instr.port] at hport
  | openDev => cases h; exact (openDevice_ports s).imp fun _ e => ⟨_, e⟩
  | setMode m => cases h; exact (setMode_ports s m).imp fun _ e => ⟨_, e⟩
  | write data => cases h; exact writeTx_ports s data
  | flush => cases h; exact (flushRx_ports s).imp fun _ e => ⟨_, e⟩
  | getMode | getUnit | getMult | getOffs => cases h; exact ⟨_, _, rfl⟩
  | setMult | setOffs | poll | getStat => cases h; split <;> exact ⟨_, _, rfl⟩

/-- An event sends no response, but for the READ that CANCEL ends (R266). -/
theorem exec_ports_of_event (hport : i.port = .evt) (h : exec i s = .next t) :
    t.ports = s.ports ∨ i = .cancel ∧ s.rdBlocked ≠ none ∧ t.ports = s.ports.answer .rd (plain .interrupted 0) := by
  cases i with
  | segDone => left; rw [execSegDone_eq h]
  | refreshTick => cases h; left; rw [refresh_eq]
  | cancel =>
    cases h
    rw [interruptRead_ports]
    cases s.rdBlocked with
    | none => exact .inl rfl
    | some n => exact .inr ⟨rfl, nofun, rfl⟩
  | _ => cases hport

/-- A response on a host port is the last of that port's responses. -/
theorem responses_of_answer {p : Port} {r : Response} (hp : p ≠ .evt) (h : t.ports = s.ports.answer p r) :
    responses t p = responses s p ++ [r] := by
  cases p with
  | evt => exact absurd rfl hp
  | _ => simp only [responses, h, Ports.answer]

end

/-- Settles O55: CTL and WR commands answer without data, CLOSE also on the RD port for the READ it ends, READ with what it took. -/
theorem everyCommandIsAnsweredOnce : Obligations.EveryCommandIsAnsweredOnce := by
  refine ⟨fun i s t h hport => ?_, fun i s t h hport => exec_ports_of_event hport h⟩
  by_cases hclose : i = .closeDev
  · subst hclose
    cases h
    obtain ⟨st, e | e⟩ := closeDevice_ports s
    · exact .inl ⟨plain st 0, responses_of_answer nofun e, absurd rfl, nofun⟩
    · exact .inl ⟨plain st 0, by simp only [responses, Instr.port, e, Ports.answer], absurd rfl, nofun⟩
  · cases hi : i.port with
    | evt => exact absurd hi hport
    | ctl | wr =>
      obtain ⟨st, v, e⟩ := exec_ports_of_plain (by simp [hi]) hclose h
      rw [hi] at e
      exact .inl ⟨plain st v, responses_of_answer nofun e, absurd rfl, nofun⟩
    | rd =>
      cases i with
      | read nb n =>
        cases h
        rcases readRx_ports s nb n with ⟨r, e, hvalue⟩ | ⟨rfl, e⟩
        · exact .inl ⟨r, responses_of_answer nofun e, fun _ => rfl, fun _ => hvalue⟩
        · exact .inr ⟨n, rfl, e⟩
      | _ => cases hi

/-! ## A blocked READ -/

section
variable {s t : State} {i : Instr}

/-- Commands of the CTL and the WR port but CLOSE, and the events but CANCEL, send nothing on the RD port (R121, R264). -/
theorem exec_rdOut (hcancel : i ≠ .cancel) (hclose : i ≠ .closeDev) (hread : ∀ nb k, i ≠ .read nb k)
    (h : exec i s = .next t) : t.ports.rdOut = s.ports.rdOut := by
  cases hi : i.port with
  | evt =>
    rcases exec_ports_of_event hi h with e | ⟨e, -⟩
    · rw [e]
    · exact absurd e hcancel
  | ctl | wr =>
    obtain ⟨st, v, e⟩ := exec_ports_of_plain (by simp [hi]) hclose h
    rw [e, hi]
    rfl
  | rd =>
    cases i with
    | read nb k => exact absurd rfl (hread nb k)
    | _ => cases hi

theorem openDevice_rdBlocked (s : State) : (openDevice s).rdBlocked = s.rdBlocked := by
  unfold openDevice
  split_ifs <;> rfl

/-- Only READ blocks, and only CANCEL and CLOSE end a blocked READ (R264, R266, R302). -/
theorem exec_rdBlocked (hcancel : i ≠ .cancel) (hclose : i ≠ .closeDev) (hread : ∀ nb k, i ≠ .read nb k)
    (h : exec i s = .next t) : t.rdBlocked = s.rdBlocked := by
  cases i with
  | cancel => exact absurd rfl hcancel
  | closeDev => exact absurd rfl hclose
  | read nb k => exact absurd rfl (hread nb k)
  | openDev => cases h; exact openDevice_rdBlocked s
  | setMode m => cases h; rw [setMode_eq]
  | write data => cases h; rw [writeTx_eq]
  | flush => cases h; rw [flushRx_eq]
  | refreshTick => cases h; rw [refresh_eq]
  | segDone => rw [execSegDone_eq h]
  | getMode | getUnit | getMult | getOffs => cases h; rfl
  | setMult | setOffs | poll | getStat => cases h; split <;> rfl

end

/-- Settles O53: no other command or event touches what blocks, or the RD port's responses. -/
theorem onlyCancelCloseLiftABlockedRead : Obligations.OnlyCancelCloseLiftABlockedRead :=
  fun _ _ _ _ h hblocked hcancel hclose hread =>
    ⟨(exec_rdBlocked hcancel hclose hread h).trans hblocked, exec_rdOut hcancel hclose hread h⟩

/-! ## The stream from RX to the RD port -/

/-- What the RD port has sent and what RX holds, in order (R92). -/
def rdStream (s : State) : List Byte := readBytesSent s ++ contents s.cap s.rx

section
variable {s t : State}

theorem readBytesSent_of_answer {r : Response} (h : t.ports = s.ports.answer .rd r) :
    readBytesSent t = readBytesSent s ++ r.data := by
  simp only [readBytesSent, h, Ports.answer, List.flatMap_append, List.flatMap_cons, List.flatMap_nil, List.append_nil]

theorem rdStream_congr (hout : t.ports.rdOut = s.ports.rdOut) (hcap : t.cap = s.cap) (hrx : t.rx = s.rx) :
    rdStream t = rdStream s := by
  rw [rdStream, rdStream, readBytesSent, readBytesSent, hout, hcap, hrx]

/-- What a READ takes from the queue it sends (R280). -/
theorem takeRx_rdStream (n : Word) (s : State) : rdStream (takeRx n s) = rdStream s := by
  have hsent : readBytesSent (takeRx n s) = readBytesSent s ++ popBytes s.cap s.rx n.toNat :=
    readBytesSent_of_answer (r := ⟨.ok, _, popBytes s.cap s.rx n.toNat⟩) rfl
  rw [rdStream, hsent, takeRx_cap, takeRx_rx, List.append_assoc, popBytes_append_contents_queuePop, rdStream]

theorem readRx_rdStream (nb : Bool) (n : Word) (s : State) : rdStream (readRx nb n s) = rdStream s := by
  have hempty : ∀ st, rdStream (respond .rd st 0 [] s) = rdStream s := fun st => by
    have hsent : readBytesSent (respond .rd st 0 [] s) = readBytesSent s ++ [] :=
      readBytesSent_of_answer (r := plain st 0) rfl
    rw [rdStream, hsent, List.append_nil]
    rfl
  unfold readRx
  split_ifs
  · exact hempty .notOpen
  · exact hempty .ok
  · exact takeRx_rdStream n s
  · exact hempty .ok
  · rfl

theorem readWake_rdStream (n : Word) (s : State) : rdStream (readWake n s) = rdStream s := by
  unfold readWake
  split
  · exact takeRx_rdStream n _
  · rfl

/-- Ending a blocked READ sends no data (R266). -/
theorem interruptRead_readBytesSent (s : State) : readBytesSent (interruptRead s) = readBytesSent s := by
  cases hb : s.rdBlocked with
  | none => rw [interruptRead_of_free hb]
  | some n =>
    rw [interruptRead_of_blocked hb]
    exact (readBytesSent_of_answer (r := plain .interrupted 0) rfl).trans (List.append_nil _)

/-- An RX completion appends to the stream the segment it moved, or nothing (R202). -/
theorem rxComplete_rdStream (hrx : QueueOk s.cap s.rx) (h : rxComplete s = .next t) :
    ∃ bs, (bs = [] ∨ bs.length = s.par.unit ∧ Holds s.bounce (segAddr s.par (rxSegment s)) bs) ∧
      rdStream t = rdStream s ++ bs := by
  rcases rxComplete_cases h with ⟨-, hroom, bs, hread, rfl⟩ | ⟨-, rfl⟩
  · obtain ⟨hlen, hholds⟩ := holds_of_memRead hread
    have hfit : s.rx.count + bs.length ≤ s.cap := by
      rw [hlen]
      exact rxHasRoom_iff.mp hroom
    refine ⟨bs, .inr ⟨hlen, hholds⟩, ?_⟩
    simp [rdStream, readBytesSent, contents_queuePush_of_fits hrx hfit]
  · refine ⟨[], .inl rfl, ?_⟩
    rw [List.append_nil]
    exact rdStream_congr (by simp) (by simp) (by simp)

/-- A TX completion leaves the stream alone (R205). -/
theorem txComplete_rdStream (h : txComplete s = .next t) : rdStream t = rdStream s := by
  rcases txComplete_cases h with ⟨-, -, m, -, rfl⟩ | ⟨-, rfl⟩ <;> exact rdStream_congr (by simp) (by simp) (by simp)

/-- SEG_DONE appends to the stream the segment an RX completion moved, or nothing (R200). -/
theorem execSegDone_rdStream (hs : Inv s) (h : execSegDone s = .next t) :
    ∃ bs, (bs = [] ∨ bs.length = s.par.unit ∧ s.xferDir = .devToMem ∧ 0 < s.pending ∧
        Holds s.bounce (segAddr s.par (s.completed.toNat % s.par.nSeg)) bs) ∧
      rdStream t = rdStream s ++ bs := by
  unfold execSegDone at h
  split at h
  · next hp =>
    unfold dispatchOne at h
    split at h
    · next hd =>
      obtain ⟨bs, hbs, hstream⟩ := rxComplete_rdStream (s := { s with pending := s.pending - 1 }) hs.rx h
      exact ⟨bs, hbs.imp_right fun ⟨hlen, hholds⟩ => ⟨hlen, hd, hp, hholds⟩, hstream⟩
    · have hstream := txComplete_rdStream h
      exact ⟨[], .inl rfl, hstream.trans (List.append_nil _).symm⟩
  · cases h
    exact ⟨[], .inl rfl, (List.append_nil _).symm⟩

/-- Only READ, FLUSH, OPEN, CLOSE and SEG_DONE touch the RX queue (R92). -/
theorem exec_rx {i : Instr} (hread : ∀ nb k, i ≠ .read nb k) (hflush : i ≠ .flush) (hopen : i ≠ .openDev)
    (hclose : i ≠ .closeDev) (hseg : i ≠ .segDone) (h : exec i s = .next t) : t.rx = s.rx := by
  cases i with
  | read nb k => exact absurd rfl (hread nb k)
  | flush => exact absurd rfl hflush
  | openDev => exact absurd rfl hopen
  | closeDev => exact absurd rfl hclose
  | segDone => exact absurd rfl hseg
  | setMode m => cases h; rw [setMode_eq]
  | write data => cases h; rw [writeTx_eq]
  | refreshTick => cases h; rw [refresh_eq]
  | cancel => cases h; exact interruptRead_rx s
  | getMode | getUnit | getMult | getOffs => cases h; rfl
  | setMult | setOffs | poll | getStat => cases h; split <;> rfl

/-- No command or event but SEG_DONE, FLUSH, OPEN and CLOSE changes the stream (R92). -/
theorem exec_rdStream {i : Instr} (hflush : i ≠ .flush) (hopen : i ≠ .openDev) (hclose : i ≠ .closeDev)
    (hseg : i ≠ .segDone) (h : exec i s = .next t) : rdStream t = rdStream s := by
  by_cases hread : ∃ nb n, i = .read nb n
  · obtain ⟨nb, n, rfl⟩ := hread
    cases h
    exact readRx_rdStream nb n s
  · have hread : ∀ nb n, i ≠ .read nb n := fun nb n e => hread ⟨nb, n, e⟩
    have hrx := exec_rx hread hflush hopen hclose hseg h
    obtain ⟨hcap, -⟩ := geometryIsFixedWhileOpen i s t h hclose (absurd · hopen)
    by_cases hcancel : i = .cancel
    · subst hcancel
      cases h
      rw [rdStream, rdStream, interruptRead_readBytesSent, hcap, hrx]
    · exact rdStream_congr (exec_rdOut hcancel hclose hread h) hcap hrx

/-! ## FLUSH, OPEN and CLOSE -/

theorem flushRx_rx (s : State) :
    (flushRx s).rx = s.rx ∧ (flushRx s).cap = s.cap ∨ contents (flushRx s).cap (flushRx s).rx = [] := by
  unfold flushRx
  split
  · exact .inl ⟨rfl, rfl⟩
  · exact .inr (contents_eq_nil_of_count rfl)

theorem openDevice_rx (s : State) :
    (openDevice s).rx = s.rx ∧ (openDevice s).cap = s.cap ∨ contents (openDevice s).cap (openDevice s).rx = [] := by
  unfold openDevice
  split_ifs
  · exact .inl ⟨rfl, rfl⟩
  · exact .inr (contents_eq_nil_of_count rfl)
  · exact .inl ⟨rfl, rfl⟩

theorem closeDevice_rx (s : State) :
    (closeDevice s).rx = s.rx ∧ (closeDevice s).cap = s.cap ∨ contents (closeDevice s).cap (closeDevice s).rx = [] := by
  unfold closeDevice
  split
  · exact .inl ⟨rfl, rfl⟩
  · exact .inr (contents_eq_nil_of_count rfl)

theorem closeDevice_readBytesSent (s : State) : readBytesSent (closeDevice s) = readBytesSent s := by
  obtain ⟨st, e | e⟩ := closeDevice_ports s
  · rw [readBytesSent, e]
    rfl
  · simp [readBytesSent, e, Ports.answer, plain]

end

/-- Settles O48: READ and READ_WAKE send what they pop, an RX completion appends the segment it read, and FLUSH, OPEN and CLOSE empty the queue or leave it. -/
theorem rxStreamIsConserved : Obligations.RxStreamIsConserved := by
  refine ⟨fun i s t hs h hflush hopen hclose => ?_, fun i s t h hi => ?_, readWake_rdStream, fun s t h => ?_⟩
  · by_cases hseg : i = .segDone
    · subst hseg
      obtain ⟨bs, hbs, hstream⟩ := execSegDone_rdStream hs h
      exact ⟨bs, hbs.imp_right fun hmoved => ⟨rfl, hmoved⟩, hstream⟩
    · have hstream := exec_rdStream hflush hopen hclose hseg h
      exact ⟨[], .inl rfl, hstream.trans (List.append_nil _).symm⟩
  · have hsent : t.ports.rdOut = s.ports.rdOut → readBytesSent t = readBytesSent s :=
      congrArg (List.flatMap Response.data)
    rcases hi with rfl | rfl | rfl
    · have hout := exec_rdOut (i := .flush) nofun nofun nofun h
      cases h
      exact ⟨hsent hout, flushRx_rx s⟩
    · have hout := exec_rdOut (i := .openDev) nofun nofun nofun h
      cases h
      exact ⟨hsent hout, openDevice_rx s⟩
    · cases h
      exact ⟨closeDevice_readBytesSent s, closeDevice_rx s⟩
  · rw [dmaSegment_eq h]
    exact ⟨rfl, rfl, rfl⟩

end Sys2Proof.Machine

/-! PROOF. The mode (40_mode_state_machine.md): the branches of SET_MODE without a transition and to Idle (R88, R150), what SET_MODE leaves alone (R159), the selector it drives (R151), and what else changes the mode (10_state.md R34). -/

namespace Sys2Proof.Machine

open Sys2Proof.Claims

/-! ## SET_MODE without a transition, and to Idle -/

section
variable {m : Mode} {s : State}

theorem setMode_of_closed (h : s.isOpen = false) : setMode m s = raise .ctl .notOpen s := if_pos h

theorem setMode_of_current (ho : s.isOpen = true) (hm : m = s.mode) : setMode m s = done .ctl 0 s := by
  rw [setMode, if_neg (by simp [ho]), if_pos hm]

/-- A SET_MODE that answered OK left the device open and in the mode asked for (R157). -/
theorem setMode_of_ok (h : (setMode m s).ports.ctlOut = s.ports.ctlOut ++ [plain .ok 0]) :
    (setMode m s).isOpen = true ∧ m = (setMode m s).mode := by
  rcases setMode_cases m s with ⟨-, e⟩ | ⟨ho, hm, e⟩ | ⟨-, -, -, e⟩ | ⟨ho, -, -, hm, e⟩ | ⟨ho, -, -, hm, e⟩ |
    ⟨ho, -, -, -, -, e⟩ | ⟨-, -, -, -, hs, e⟩ <;> rw [e] at h ⊢
  · simp [Ports.answer, plain] at h
  · exact ⟨ho, hm⟩
  · simp [Ports.answer, plain] at h
  · exact ⟨ho, hm⟩
  · exact ⟨ho, hm⟩
  · exact ⟨by simpa using ho, rfl⟩
  · simp [Ports.answer, plain, hs] at h

end

/-- Settles O18: neither a closed device nor the current mode reaches the stop, and after OK the mode asked for is the current one. -/
theorem setModeWithoutTransition : Obligations.SetModeWithoutTransition := by
  refine fun m s => ⟨fun h => congrArg Host.Outcome.next (setMode_of_closed h),
    fun ho hm => congrArg Host.Outcome.next (setMode_of_current ho hm), fun t h hok => ?_⟩
  cases h
  obtain ⟨ho, hm⟩ := setMode_of_ok hok
  exact congrArg Host.Outcome.next (setMode_of_current ho hm)

/-- Settles O19: after the stop, the branch of Idle sets the mode and the selector. -/
theorem setModeIdleStops : Obligations.SetModeIdleStops := by
  intro s ho hm hq
  rw [exec_setMode, setMode_of_quiesced ho hm.symm hq]
  rfl

/-! ## What SET_MODE leaves alone -/

/-- Only the entry into Tx resets the TX queue (R152, R159). -/
theorem setMode_tx {m : Mode} {s : State} (h : m ≠ .tx ∨ s.mode = .tx) : (setMode m s).tx = s.tx := by
  rcases setMode_cases m s with ⟨-, e⟩ | ⟨-, -, e⟩ | ⟨-, -, -, e⟩ | ⟨-, -, -, -, e⟩ | ⟨-, hm, -, htx, -⟩ |
    ⟨-, -, -, -, -, e⟩ | ⟨-, -, -, -, -, e⟩
  · simp [e]
  · simp [e]
  · simp [e]
  · simp [e]
  · rcases h with hne | hcurrent
    · exact absurd htx hne
    · exact absurd (htx.trans hcurrent.symm) hm
  · simp [e]
  · simp [e]

/-- Settles O24: the fields are among those SET_MODE leaves alone, and only its branch of Tx writes the TX queue. -/
theorem setModeLeavesRxAndConfiguration : Obligations.SetModeLeavesRxAndConfiguration := by
  intro m s t h
  cases h
  refine ⟨?_, ?_, ?_, ?_, ?_, ?_, setMode_tx⟩ <;> rw [setMode_eq]

/-! ## The selector -/

/-- SET_MODE to Tx, or to a receive channel that starts, drives SELECTOR at the mode and the offsets held (R151). -/
theorem setMode_sel {m : Mode} {s : State} (hidle : m ≠ .idle) (ho : s.isOpen = true) (hm : s.mode ≠ m)
    (hq : stopQuiesced s = true) (hstart : m = .tx ∨ startResult (stopTransfer s) = .ok) :
    (setMode m s).sel = selectorValue s.par m s.cfgOffa s.cfgOffb := by
  rw [setMode_of_quiesced ho hm.symm hq]
  by_cases htx : m = .tx
  · subst htx
    rfl
  · have hrx : m = .rx0 ∨ m = .rx1 := by
      cases m with
      | idle => exact absurd rfl hidle
      | rx0 => exact .inl rfl
      | rx1 => exact .inr rfl
      | tx => exact absurd rfl htx
    have hok : startResult (configureSelector m (enterIdle (stopTransfer s))) = .ok := hstart.resolve_left htx
    rw [modeAfterStop_receive hrx, enterReceive, if_pos hok]
    simp

/-- Settles O56: SET_MODE drives SELECTOR's value, which the table of a function gives back, and legal parameters keep SEL_HIZ apart from every value. -/
theorem selectorIsTheGivenFunction : Obligations.SelectorIsTheGivenFunction := by
  have hargs : ∀ {m : Mode} {a b : Int}, m ≠ .idle → -1 ≤ a → a ≤ 4 → -1 ≤ b → b ≤ 4 → (m, a, b) ∈ selectorArgs :=
    fun hm ha₁ ha₂ hb₁ hb₂ => mem_selectorArgs.mpr ⟨hm, mem_offsRange.mpr ⟨ha₁, ha₂⟩, mem_offsRange.mpr ⟨hb₁, hb₂⟩⟩
  refine ⟨fun f s m hf hidle ha₁ ha₂ hb₁ hb₂ ho hm hq hstart => ⟨setMode m s, rfl, ?_⟩,
    fun p m a b hp hidle ha₁ ha₂ hb₁ hb₂ => ?_⟩
  · rw [setMode_sel hidle ho hm hq hstart, selectorValue_table hf (hargs hidle ha₁ ha₂ hb₁ hb₂)]
  · obtain ⟨-, -, hdistinct⟩ := paramsLegal_iff.mp hp
    exact hizDistinct_iff.mp hdistinct m a b (hargs hidle ha₁ ha₂ hb₁ hb₂)

/-! ## What changes the mode -/

section
variable {s : State}

/-- OPEN of a closed device finds it in Idle and leaves it there (R63 item 1, R300). -/
theorem openDevice_mode (h : Inv s) : (openDevice s).mode = s.mode := by
  unfold openDevice
  split_ifs with hopen
  · rfl
  · exact (h.closed (by simpa using hopen)).mode.symm
  · rfl

/-- A WRITE changes the mode only by a lazy start that fails (R286). -/
theorem writeTx_mode {data : List Byte} (h : (writeTx data s).mode ≠ s.mode) :
    (writeTx data s).mode = .idle ∧ s.mode = .tx ∧ s.xferDir = .none ∧ startResult s ≠ .ok := by
  unfold writeTx at h ⊢
  split at h
  · exact absurd rfl h
  · next hopen =>
    rw [if_neg hopen]
    rcases writeFinish_cases (BitVec.ofNat 32 (pushCount s.cap s.tx data.length)) (writePush data s) with
      ⟨-, e⟩ | ⟨-, -, e⟩ | ⟨hdue, hs, e⟩ <;> rw [e] at h ⊢
    · exact absurd rfl h
    · simp at h
    · obtain ⟨htx, hnone, -⟩ := lazyStartDue_iff.mp hdue
      exact ⟨rfl, htx, hnone, hs⟩

/-- No command or event but SET_MODE, WRITE and CLOSE changes the mode of a sound state (R34). -/
theorem exec_mode {i : Instr} {t : State} (hs : Inv s) (hmode : ∀ m, i ≠ .setMode m) (hwrite : ∀ d, i ≠ .write d)
    (hclose : i ≠ .closeDev) (h : exec i s = .next t) : t.mode = s.mode := by
  cases i with
  | setMode m => exact absurd rfl (hmode m)
  | write d => exact absurd rfl (hwrite d)
  | closeDev => exact absurd rfl hclose
  | openDev => cases h; exact openDevice_mode hs
  | read nb n => cases h; rw [readRx_eq]
  | flush => cases h; rw [flushRx_eq]
  | refreshTick => cases h; rw [refresh_eq]
  | cancel => cases h; exact interruptRead_mode s
  | segDone => rw [execSegDone_eq h]
  | getMode | getUnit | getMult | getOffs => cases h; rfl
  | setMult | setOffs | poll | getStat => cases h; split <;> rfl

end

/-- Settles O50: the other commands and events, the segment step and READ_WAKE do not write the mode. -/
theorem onlySetModeWriteCloseChangeTheMode : Obligations.OnlySetModeWriteCloseChangeTheMode := by
  refine ⟨fun _ _ _ hs h hmode hwrite hclose => exec_mode hs hmode hwrite hclose h, fun d s t h hne => ?_,
    fun s t h => ?_, fun n s => ?_⟩
  · cases h
    exact writeTx_mode hne
  · rw [dmaSegment_eq h]
  · rw [readWake_eq]

end Sys2Proof.Machine

/-! PROOF. The step (00_scope.md R11, 60_exceptions.md R345): whose turn it is and what it runs, and what has nothing to do. -/

namespace Sys2Proof.Machine

open Sys2Proof.Claims

section
variable {s : State}

/-- A port's agent takes the port's next command, unless a READ holds the RD port (R264). -/
theorem runAgent_portAgent {p : Port} (h : p = .rd → s.rdBlocked = none) : runAgent (portAgent p) s = runPort p s := by
  cases p with
  | rd => rw [portAgent, runAgent, runRd, h rfl]
  | _ => rfl

theorem runPort_instr {p : Port} {i : Instr} {rest : List Byte} (h : decodeBytes p (s.ports.input p) = .instr i rest) :
    runPort p s = exec i (setInput p rest s) := by
  rw [runPort, h]

theorem step_of_free_turn (hp : paramsLegal s.par = true) (ht : s.env.turns = []) :
    step s = runAgent (Config.freeAgent s.env.drawn) { s with env := { s.env with drawn := s.env.drawn + 1 } } := by
  have hagent : nextAgent s.env = Config.freeAgent s.env.drawn := by rw [nextAgent, ht]
  have hturn : dropTurn s.env = { s.env with drawn := s.env.drawn + 1 } := by simp only [dropTurn, ht]
  rw [step_legal hp, turnTaken, hagent, hturn]

theorem execSegDone_of_idle (h : s.pending = 0) : execSegDone s = .next s := if_neg (by omega)

theorem dmaSegment_of_disabled (h : s.xferDir = .none ∨ s.periphEn = false ∨ s.xferRemaining = 0) :
    dmaSegment s = .next s := by
  refine if_neg fun hen => ?_
  obtain ⟨hd, hperiph, hremaining⟩ := dmaEnabled_iff.mp hen
  rcases h with hnone | hoff | hzero
  · exact hd hnone
  · exact Bool.false_ne_true (hoff.symm.trans hperiph)
  · omega

theorem readWake_of_empty (h : s.rx.count = 0) (n : Word) : readWake n s = s := if_neg (by omega)

end

/-- Settles O7: the turn is the port's agent's, which takes the command its port decodes. -/
theorem stepRunsTheDecodedCommand : Obligations.StepRunsTheDecodedCommand := by
  intro s p i rest ts hp ht hfree hdecode
  rw [step_of_turn hp ht]
  refine (runAgent_portAgent ?_).trans (runPort_instr ?_)
  · exact hfree
  · exact hdecode

/-- Settles O8: a settled turn is its agent's step, and a free one that of the agent drawn. -/
theorem stepRunsTheAgents : Obligations.StepRunsTheAgents := fun _ _ hp =>
  ⟨step_of_turn hp, step_of_turn hp, step_of_turn hp, step_of_turn hp, step_of_free_turn hp⟩

/-- Settles O15: each finds its guard closed. -/
theorem eventsWithNothingToDo : Obligations.EventsWithNothingToDo := by
  refine fun s => ⟨execSegDone_of_idle, fun hnone => congrArg Host.Outcome.next (refresh_not_due (.inl hnone)),
    fun hfree => congrArg Host.Outcome.next (interruptRead_of_free hfree), dmaSegment_of_disabled,
    fun n ts hp ht hblocked hrx => ?_⟩
  rw [step_of_turn hp ht, runAgent, runRd, hblocked]
  refine congrArg Host.Outcome.next ?_
  rw [readWake_of_empty]
  exact hrx

end Sys2Proof.Machine

/-! PROOF. OPEN after reset and after CLOSE (70_reset_and_hazards.md section 1): the launch premise OpenIdle (R383, R382). -/

namespace Sys2Proof.Machine

open Sys2Proof.Claims

section
variable {s : State}

theorem openDevice_of_alloc (hc : s.isOpen = false) (halloc : nextBit s.env = true) :
    openDevice s = done .ctl 0 (openState { s with env := dropBit s.env }) := by
  rw [openDevice, if_neg (by simp [hc]), if_pos halloc]

/-- OPEN sets every field of OpenIdle but `rd_blocked`, which a sound closed state holds clear (R300, R63 item 1). -/
theorem openIdle_openState (hb : s.rdBlocked = none) : OpenIdle (openState s) where
  isOpen := rfl
  mode := rfl
  sel := rfl
  xferDir := rfl
  pending := rfl
  hwIdx := rfl
  cap := rfl
  rx := rfl
  tx := rfl
  completed := rfl
  dropped := rfl
  readable := rfl
  writeable := rfl
  deadlineMiss := rfl
  rdBlocked := hb
  periphEn := rfl
  periphDir := rfl
  xferRemaining := rfl
  bounce := openState_bounce_addrs s

/-- A response leaves OpenIdle, since no command is outstanding once it is answered (log 19). -/
theorem OpenIdle.respond (h : OpenIdle s) (p : Port) (st : Status) (v : Word) (d : List Byte) :
    OpenIdle (respond p st v d s) :=
  { h with }

theorem openIdle_openDevice (h : Inv s) (hc : s.isOpen = false) (halloc : nextBit s.env = true) :
    OpenIdle (openDevice s) := by
  rw [openDevice_of_alloc hc halloc]
  exact (openIdle_openState (s := { s with env := dropBit s.env }) (h.closed hc).rdBlocked).respond ..

/-- The fields that OPEN and CLOSE hand on: the configuration and what was observed (R382). -/
def survivors (s : State) : BitVec 8 × Int × Int × Nat × List Byte :=
  (s.cfgMult, s.cfgOffa, s.cfgOffb, s.notifyCount, s.txWire)

theorem openDevice_survivors (s : State) : survivors (openDevice s) = survivors s := by
  unfold openDevice
  split_ifs <;> rfl

theorem closeDevice_survivors (s : State) : survivors (closeDevice s) = survivors s := by
  unfold closeDevice
  split
  · rfl
  · rw [interruptRead_eq]
    rfl

theorem closeDevice_isOpen (s : State) : (closeDevice s).isOpen = false := by
  unfold closeDevice
  split
  · next hclosed => exact hclosed
  · rfl

end

/-- Settles O37: CLOSE leaves a sound closed state, from which OPEN leaves OpenIdle; neither touches what survives. -/
theorem openReinitialises : Obligations.OpenReinitialises := by
  refine ⟨fun s hs hc halloc => ⟨openDevice s, rfl, openIdle_openDevice hs hc halloc⟩, fun s t hs _ h halloc => ?_⟩
  cases h
  have hidle := openIdle_openDevice (closeDevice_inv hs) (closeDevice_isOpen s) halloc
  have hsurvive := (openDevice_survivors (closeDevice s)).trans (closeDevice_survivors s)
  simp only [survivors, Prod.mk.injEq] at hsurvive
  exact ⟨openDevice (closeDevice s), rfl, hidle, hsurvive⟩

end Sys2Proof.Machine
